-- ==== Sys2Proof/Word.lean ====
section
/-! DEFINITION. The word types of the core: 32-bit registers and elements, bytes of BSBUF, and the codeword pair. -/

namespace Sys2Proof

/-- A 32-bit register or element (00 R10 "register width"; 20 R75). -/
abbrev Word := BitVec 32

/-- A byte of BSBUF (10 R34). -/
abbrev Byte := BitVec 8

/-- A codeword: `len` bits on the wire, the low `len` bits of `pat`, MSB first (42 R180). -/
structure Codeword where
  len : Nat
  pat : Nat
  deriving DecidableEq, Repr

end Sys2Proof
end

