-- ==== Sys2Proof/Syntax.lean ====
section
/-! DEFINITION. The commands of the core (one constructor per row of the opcode map, 30 R106), the names of the
locations the host can reach (20 R70, R79), and the host's accesses. -/

namespace Sys2Proof

/-- The 45 commands of 30 R106. A command has no operand field: its operands are in ARG[0..15] (30 R101, R104). -/
inductive Instr where
  /-- 0x00, 47 R390. -/
  | nop
  /-- 0x01, 47 R391. -/
  | clrerr
  /-- 0x08, 40 R150. -/
  | bsBind
  /-- 0x09, 40 R151. -/
  | bsReset
  /-- 0x0A, 40 R152. -/
  | bsRead1
  /-- 0x0B, 40 R153. -/
  | bsReadn
  /-- 0x0C, 40 R154. -/
  | bsWrite
  /-- 0x10, 41 R170. -/
  | ueEnc
  /-- 0x11, 41 R171. -/
  | ueDec
  /-- 0x12, 41 R172. -/
  | seEnc
  /-- 0x13, 41 R173. -/
  | seDec
  /-- 0x14, 41 R174. -/
  | teEnc
  /-- 0x15, 41 R175. -/
  | teDec
  /-- 0x20, 42 R200. -/
  | ctEnc
  /-- 0x21, 42 R201. -/
  | ctDec
  /-- 0x22, 42 R202. -/
  | tz4Enc
  /-- 0x23, 42 R203. -/
  | tz4Dec
  /-- 0x24, 42 R204. -/
  | tzc2Enc
  /-- 0x25, 42 R205. -/
  | tzc2Dec
  /-- 0x26, 42 R206. -/
  | tzc4Enc
  /-- 0x27, 42 R207. -/
  | tzc4Dec
  /-- 0x28, 42 R208. -/
  | rbEnc
  /-- 0x29, 42 R209. -/
  | rbDec
  /-- 0x2A, 42 R210. -/
  | pfxEnc
  /-- 0x2B, 42 R211. -/
  | pfxDec
  /-- 0x2C, 42 R212. -/
  | cbpEnc
  /-- 0x2D, 42 R213. -/
  | cbpDec
  /-- 0x30, 43 R250. -/
  | cavlcEnc4
  /-- 0x31, 43 R251. -/
  | cavlcDec4
  /-- 0x32, 43 R252. -/
  | cavlcEnc2
  /-- 0x33, 43 R253. -/
  | cavlcDec2
  /-- 0x40, 44 R290. -/
  | fwd4
  /-- 0x41, 44 R291. -/
  | inv4
  /-- 0x42, 44 R292. -/
  | fwdDc4
  /-- 0x43, 44 R293. -/
  | invDc4
  /-- 0x44, 44 R294. -/
  | fwdDc2
  /-- 0x45, 44 R295. -/
  | invDc2
  /-- 0x46, 44 R296. -/
  | qpc
  /-- 0x50, 45 R330. -/
  | mbInit
  /-- 0x51, 45 R375. -/
  | mbEncode
  /-- 0x52, 45 R376. -/
  | mbDecode
  /-- 0x53, 45 R371. -/
  | mbSettype
  /-- 0x54, 45 R372. -/
  | mbUnpacktype
  /-- 0x55, 45 R373. -/
  | mbNc
  /-- 0x56, 45 R374. -/
  | mbMvp
  deriving DecidableEq, Repr

/-- The three components of a sample plane (10 R35, R36). -/
inductive Plane where
  | y
  | cb
  | cr
  deriving DecidableEq, Repr

/-- The fields of a macroblock record, each a 32-bit element to the host (10 R37). -/
inductive MbField where
  | done
  | slice
  | stype
  | qp
  | intra
  | pm
  | cpm
  | mvx
  | mvy
  | mvdx
  | mvdy
  | cbp
  | mbType
  | tcy (b : Nat)
  | tcc (c b : Nat)
  | coefY (b k : Nat)
  | coefC (c b k : Nat)
  | dcY (k : Nat)
  | dcC (c k : Nat)
  deriving DecidableEq, Repr

/-- A register or memory element as the host names it (20 R70, R79, R81: by name, no bus address). -/
inductive Loc where
  | cmd
  | status
  | errAcc
  | arg (i : Nat)
  | res (i : Nat)
  | bsBase
  | bsLen
  | bsPos
  | gridW
  | gridH
  | gridValid
  | cb (k : Nat)
  | tb (k : Nat)
  | dcb (k : Nat)
  | bsbuf (a : Nat)
  | pin (p : Plane) (row col : Nat)
  | pout (p : Plane) (row col : Nat)
  | mbs (m : Nat) (f : MbField)
  deriving DecidableEq, Repr

/-- The shape of a host access (20 R75, R78; 93 I9). -/
inductive AccessSize where
  /-- One byte: the only access BSBUF has. -/
  | byte
  /-- Two bytes: no location has it. -/
  | half
  /-- An aligned 32-bit access: the only access of a register or element. -/
  | word
  /-- A misaligned access, or one wider than 32 bits: no location has it. -/
  | irregular
  deriving DecidableEq, Repr

/-- One access of the host, or a reset (20 R70; 70 R442). -/
inductive HostAccess where
  | read (l : Loc) (size : AccessSize)
  /-- A byte write uses the low 8 bits of `v`. -/
  | write (l : Loc) (size : AccessSize) (v : Word)
  | reset
  deriving DecidableEq, Repr

/-- Which element of a dirty error's write-set a free value fills (60 R411). -/
inductive FreeSlot where
  | res (i : Nat)
  | cb (k : Nat)
  | mb (f : MbField)
  | pout (p : Plane) (row col : Nat)
  deriving DecidableEq, Repr

end Sys2Proof
end

