-- ==== Sys2Proof/Config.lean ====
section
/-! DEFINITION. The implementation parameters of 00 R10 (plain data, held by State and written by no step, so that a
statement about every state is one about every parameter value), and the free values of a dirty error (60 R411). -/

namespace Sys2Proof

/-- The parameters the spec leaves OPEN (00 R10; 93 I10). HOST_ADDR_MAP is not one: no rule depends on it (20 R81;
log 10).
QSTEP is not one: it is a parameter of a test, not of the core (44 R283; log 16). -/
structure Config where
  /-- BS_BYTES, the size of BSBUF in bytes. -/
  bsBytes : Nat
  /-- MAX_MBW. -/
  maxMbw : Nat
  /-- MAX_MBH. -/
  maxMbh : Nat
  /-- CHROMA_QP_OFFSET. -/
  chromaQpOffset : Int
  deriving DecidableEq, Repr

/-- The ranges of 00 R10: BS_BYTES at least 1, MAX_MBW and MAX_MBH each at least 3, CHROMA_QP_OFFSET in [-12,12]. -/
def Config.wf (c : Config) : Bool :=
  decide (1 ≤ c.bsBytes) && decide (3 ≤ c.maxMbw) && decide (3 ≤ c.maxMbh) &&
    decide (-12 ≤ c.chromaQpOffset) && decide (c.chromaQpOffset ≤ 12)

/-- The parameters State.reset uses: BS_BYTES 65536 as R10 suggests, CHROMA_QP_OFFSET 0 as R10 says of an unstated
one, and a largest grid of 8 by 8 (DESIGN CHOICE, log 3: R10 says only "each at least 3"; V637 of 95 uses 8). -/
def Config.default : Config := { bsBytes := 65536, maxMbw := 8, maxMbh := 8, chromaQpOffset := 0 }

/-- The value a dirty error leaves in a 32-bit element of its write-set: any value (60 R411; 93 I5; log 5).
`draw` tells one dirty error from the next, `slot` one element from another. -/
opaque Config.freeWord (draw : Nat) (slot : FreeSlot) : Word

/-- The value a dirty error leaves in a one-bit field of the record of its write-set (60 R411; log 5). -/
opaque Config.freeBool (draw : Nat) (slot : FreeSlot) : Bool

/-- The value a dirty error of a writing command leaves in stream bit `p` (60 R411; log 5). -/
opaque Config.freeBit (draw p : Nat) : Bool

/-- Where in [its start value, BS_LEN] a dirty error leaves BS_POS (60 R411; log 5). -/
opaque Config.freeNat (draw : Nat) : Nat

end Sys2Proof
end

