-- ==== Sys2Proof/WellFormed.lean ====
section
/-! DEFINITION. When a command word is well formed (30 R101, R102, R107) and when a host access has the shape its
location asks for (20 R75, R78; 93 I9). An Instr has no operand, so nothing of an Instr itself can be ill formed. -/

namespace Sys2Proof

/-- The OP column of the opcode map (30 R106): every other OP value is reserved (30 R107). -/
def definedOpcodes : List Nat :=
  [0x00, 0x01, 0x08, 0x09, 0x0A, 0x0B, 0x0C, 0x10, 0x11, 0x12,
   0x13, 0x14, 0x15, 0x20, 0x21, 0x22, 0x23, 0x24, 0x25, 0x26,
   0x27, 0x28, 0x29, 0x2A, 0x2B, 0x2C, 0x2D, 0x30, 0x31, 0x32,
   0x33, 0x40, 0x41, 0x42, 0x43, 0x44, 0x45, 0x46, 0x50, 0x51,
   0x52, 0x53, 0x54, 0x55, 0x56]

/-- Bits [31:8] RSVD of a command word (30 R101). -/
def reservedField (w : Word) : Nat := w.toNat / 256

/-- Bits [7:0] OP of a command word (30 R101). -/
def opField (w : Word) : Nat := w.toNat % 256

/-- RSVD must be 0 (30 R101). -/
def reservedClear (w : Word) : Bool := reservedField w == 0

/-- OP must be listed in the opcode map (30 R102). -/
def opcodeListed (w : Word) : Bool := definedOpcodes.contains (opField w)

/-- A command word that starts a command (30 R102). -/
def wellFormedWord (w : Word) : Bool := reservedClear w && opcodeListed w

/-- The one access shape a location has: a byte for BSBUF, an aligned 32-bit word for every register and element
(20 R75, R78). -/
def Loc.size : Loc → AccessSize
  | .bsbuf _ => .byte
  | _ => .word

/-- A host access of a shape its location has; every other is refused (93 I9). -/
def HostAccess.wellFormed : HostAccess → Bool
  | .read l size => size == l.size
  | .write l size _ => size == l.size
  | .reset => true

end Sys2Proof
end

