-- ==== Sys2Proof/Decode.lean ====
section
/-! DEFINITION. Decoding a command word (30 R101, R102, R106), total on any 32 bits and rejecting by name, and after
it the encoder (30 R116), written from the same table. -/

namespace Sys2Proof

/-- Why a command word starts no command; either ends it with IllegalCommand (30 R102, R107). -/
inductive DecodeError where
  /-- CMD[31:8] is not 0. -/
  | reservedBits
  /-- CMD[7:0] is an opcode the map does not list. -/
  | reservedOpcode (op : Nat)
  deriving DecidableEq, Repr

/-- The opcode map (30 R106); every opcode not in it is reserved (30 R107). -/
def decodeOp : Nat → Option Instr
  | 0x00 => some .nop
  | 0x01 => some .clrerr
  | 0x08 => some .bsBind
  | 0x09 => some .bsReset
  | 0x0A => some .bsRead1
  | 0x0B => some .bsReadn
  | 0x0C => some .bsWrite
  | 0x10 => some .ueEnc
  | 0x11 => some .ueDec
  | 0x12 => some .seEnc
  | 0x13 => some .seDec
  | 0x14 => some .teEnc
  | 0x15 => some .teDec
  | 0x20 => some .ctEnc
  | 0x21 => some .ctDec
  | 0x22 => some .tz4Enc
  | 0x23 => some .tz4Dec
  | 0x24 => some .tzc2Enc
  | 0x25 => some .tzc2Dec
  | 0x26 => some .tzc4Enc
  | 0x27 => some .tzc4Dec
  | 0x28 => some .rbEnc
  | 0x29 => some .rbDec
  | 0x2A => some .pfxEnc
  | 0x2B => some .pfxDec
  | 0x2C => some .cbpEnc
  | 0x2D => some .cbpDec
  | 0x30 => some .cavlcEnc4
  | 0x31 => some .cavlcDec4
  | 0x32 => some .cavlcEnc2
  | 0x33 => some .cavlcDec2
  | 0x40 => some .fwd4
  | 0x41 => some .inv4
  | 0x42 => some .fwdDc4
  | 0x43 => some .invDc4
  | 0x44 => some .fwdDc2
  | 0x45 => some .invDc2
  | 0x46 => some .qpc
  | 0x50 => some .mbInit
  | 0x51 => some .mbEncode
  | 0x52 => some .mbDecode
  | 0x53 => some .mbSettype
  | 0x54 => some .mbUnpacktype
  | 0x55 => some .mbNc
  | 0x56 => some .mbMvp
  | _ => none

/-- Decode a command word (30 R102): RSVD first, then OP. -/
def decode (w : Word) : Except DecodeError Instr :=
  if reservedField w ≠ 0 then .error .reservedBits
  else match decodeOp (opField w) with
    | some i => .ok i
    | none => .error (.reservedOpcode (opField w))

/-- The instruction the decoder reads from a table row's bits: the command word is one 32-bit register, so its bits
are numbered as the table numbers them (30 R101, R108; 20 R75: no byte order inside a register). -/
def decodeTableWord (nbits w : Nat) : Option Instr :=
  if nbits ≤ 32 ∧ w < 2 ^ nbits then
    match decode (BitVec.ofNat 32 w) with
    | .ok i => some i
    | .error _ => none
  else none

/-- The OP value of a command (30 R106). -/
def opcode : Instr → Nat
  | .nop => 0x00
  | .clrerr => 0x01
  | .bsBind => 0x08
  | .bsReset => 0x09
  | .bsRead1 => 0x0A
  | .bsReadn => 0x0B
  | .bsWrite => 0x0C
  | .ueEnc => 0x10
  | .ueDec => 0x11
  | .seEnc => 0x12
  | .seDec => 0x13
  | .teEnc => 0x14
  | .teDec => 0x15
  | .ctEnc => 0x20
  | .ctDec => 0x21
  | .tz4Enc => 0x22
  | .tz4Dec => 0x23
  | .tzc2Enc => 0x24
  | .tzc2Dec => 0x25
  | .tzc4Enc => 0x26
  | .tzc4Dec => 0x27
  | .rbEnc => 0x28
  | .rbDec => 0x29
  | .pfxEnc => 0x2A
  | .pfxDec => 0x2B
  | .cbpEnc => 0x2C
  | .cbpDec => 0x2D
  | .cavlcEnc4 => 0x30
  | .cavlcDec4 => 0x31
  | .cavlcEnc2 => 0x32
  | .cavlcDec2 => 0x33
  | .fwd4 => 0x40
  | .inv4 => 0x41
  | .fwdDc4 => 0x42
  | .invDc4 => 0x43
  | .fwdDc2 => 0x44
  | .invDc2 => 0x45
  | .qpc => 0x46
  | .mbInit => 0x50
  | .mbEncode => 0x51
  | .mbDecode => 0x52
  | .mbSettype => 0x53
  | .mbUnpacktype => 0x54
  | .mbNc => 0x55
  | .mbMvp => 0x56

/-- The one command word of a command: its OP in bits [7:0] and zeros above (30 R116). -/
def encode (i : Instr) : Word := BitVec.ofNat 32 (opcode i)

end Sys2Proof
end

