-- ==== Sys2Proof/Machine/State.lean ====
section
/-! DEFINITION. The core's architectural state (10 R20: exactly this), the model's own fields (the host's accesses
still to come, the value of its last read, the count of free values drawn), the reasons a step can stop, and the
state after reset (70 R440). -/

namespace Sys2Proof.Machine

/-- A sixteen-element buffer or register file. -/
abbrev Vec16 := Vector Word 16

/-- A four-element block (a 2x2 DC block, or the counts of four chroma blocks). -/
abbrev Vec4 := Vector Word 4

/-- A memory of 32-bit elements (a sample plane): the elements that do not read as 0, by rising index. -/
abbrev ElemMem := List (Nat × Word)

/-- A macroblock record (10 R37; log 12). -/
structure MbRecord where
  /-- DONE: coded in the current pass. -/
  done : Bool
  slice : Word
  stype : Word
  qp : Word
  /-- INTRA: Intra_16x16 (true) or inter. -/
  intra : Bool
  pm : Word
  cpm : Word
  mvx : Word
  mvy : Word
  mvdx : Word
  mvdy : Word
  cbp : Word
  mbType : Word
  /-- TCY[0..15], by luma4x4BlkIdx. -/
  tcy : Vec16
  /-- TCC[c][0..3], c = 0 (Cb), 1 (Cr). -/
  tcc : Vector Vec4 2
  /-- COEFY[b][0..15], raster order. -/
  coefY : Vector Vec16 16
  /-- COEFC[c][b][0..15], raster order. -/
  coefC : Vector (Vector Vec16 4) 2
  /-- DCY[0..15], raster order. -/
  dcY : Vec16
  /-- DCC[c][0..3], raster 2x2 order. -/
  dcC : Vector Vec4 2
  deriving DecidableEq, Repr

/-- A fresh record: every field 0 (45 R338). -/
def MbRecord.fresh : MbRecord where
  done := false
  slice := 0
  stype := 0
  qp := 0
  intra := false
  pm := 0
  cpm := 0
  mvx := 0
  mvy := 0
  mvdx := 0
  mvdy := 0
  cbp := 0
  mbType := 0
  tcy := Vector.replicate 16 0
  tcc := Vector.replicate 2 (Vector.replicate 4 0)
  coefY := Vector.replicate 16 (Vector.replicate 16 0)
  coefC := Vector.replicate 2 (Vector.replicate 4 (Vector.replicate 16 0))
  dcY := Vector.replicate 16 0
  dcC := Vector.replicate 2 (Vector.replicate 4 0)

/-- The core's state (10 R20), the machine's parameters and the model's own fields. -/
structure State where
  /-- The implementation parameters (00 R10); no step changes them. -/
  cfg : Config
  /-- CMD (10 R21). -/
  cmd : Word
  /-- STATUS (10 R22). -/
  status : Word
  /-- ERRACC (10 R23). -/
  errAcc : Word
  /-- ARG[0..15] (10 R24). -/
  arg : Vec16
  /-- RES[0..15] (10 R25). -/
  res : Vec16
  /-- BS_BASE (10 R26). -/
  bsBase : Word
  /-- BS_LEN (10 R26). -/
  bsLen : Word
  /-- BS_POS (10 R26). -/
  bsPos : Word
  /-- GRID_W (10 R28). -/
  gridW : Word
  /-- GRID_H (10 R28). -/
  gridH : Word
  /-- GRID_VALID (10 R28). -/
  gridValid : Bool
  /-- CB[0..15] (10 R31). -/
  cb : Vec16
  /-- TB[0..15] (10 R32). -/
  tb : Vec16
  /-- DCB[0..15] (10 R33). -/
  dcb : Vec16
  /-- BSBUF (10 R34), in canonical form. -/
  bsbuf : List Host.Cell
  /-- PIN_Y (10 R35), element (row, col) at index row * width + col. -/
  pinY : ElemMem
  /-- PIN_CB (10 R35). -/
  pinCb : ElemMem
  /-- PIN_CR (10 R35). -/
  pinCr : ElemMem
  /-- POUT_Y (10 R36). -/
  poutY : ElemMem
  /-- POUT_CB (10 R36). -/
  poutCb : ElemMem
  /-- POUT_CR (10 R36). -/
  poutCr : ElemMem
  /-- MBS (10 R37), one record for each m below MAX_MBW * MAX_MBH. -/
  mbs : List MbRecord
  /-- The model's own: the host's accesses still to come, oldest first (20 R70, R83; log 4). -/
  pending : List HostAccess
  /-- The model's own: the value the host's last read returned (log 4). -/
  hostData : Word
  /-- The model's own: how many dirty errors have drawn free values (60 R411; log 5). -/
  draws : Nat
  deriving DecidableEq, Repr

/-- The reasons a step stops. None of them is a command's: every error of a command is a next state (60 R420). -/
inductive Fault where
  /-- Raised by a host access to an element that does not exist: an index past the end of a register file, buffer,
  memory, plane or record store (10 R24, R25, R31 to R37). Safe: no effect is invented for it. -/
  | noSuchLocation (l : Loc)
  deriving DecidableEq, Repr

/-- The reasons a step is refused. -/
inductive Refusal where
  /-- Raised by exec's arm of an instruction that has no meaning yet. Safe. No arm does now. -/
  | notModelled (mnemonic : String)
  /-- Raised by a host access of a width or alignment its location does not have: "A model refuses them" (20 R78;
  93 I9). Safe. -/
  | hostAccess (a : HostAccess)
  deriving DecidableEq, Repr

/-- The state after reset of a machine with parameters `c` (70 R440). CMD, STATUS, ERRACC, the cursor and the grid are
the spec's zeros; ARG, RES, CB, TB, DCB and MBS, which the spec leaves unspecified, are zero by DESIGN CHOICE (log 1),
and so is what an unwritten element of BSBUF, PIN and POUT reads as (log 2). -/
def State.resetOf (c : Config) : State where
  cfg := c
  cmd := 0
  status := 0
  errAcc := 0
  arg := Vector.replicate 16 0
  res := Vector.replicate 16 0
  bsBase := 0
  bsLen := 0
  bsPos := 0
  gridW := 0
  gridH := 0
  gridValid := false
  cb := Vector.replicate 16 0
  tb := Vector.replicate 16 0
  dcb := Vector.replicate 16 0
  bsbuf := []
  pinY := []
  pinCb := []
  pinCr := []
  poutY := []
  poutCb := []
  poutCr := []
  mbs := List.replicate (c.maxMbw * c.maxMbh) MbRecord.fresh
  pending := []
  hostData := 0
  draws := 0

/-- The machine right after reset, with the parameters of Config.default (log 3). -/
def State.reset : State := State.resetOf Config.default

end Sys2Proof.Machine
end

