-- ==== Sys2Proof/Machine/Flags.lean ====
section
/-! DEFINITION. The error codes (60 R400) and the two registers they are reported in: STATUS (10 R22) and ERRACC
(10 R23), both written once, at a command's end (60 R409). -/

namespace Sys2Proof.Machine

/-- The non-zero error codes (60 R400). -/
inductive Err where
  | tableMiss
  | codecError
  | streamExhausted
  | streamOverflow
  | badOperand
  | unsupported
  | arithOverflow
  | illegalCommand
  | mbFailure
  | orderViolation
  | noGrid
  deriving DecidableEq, Repr

/-- The number of each code (60 R400). -/
def Err.code : Err → Nat
  | .tableMiss => 1
  | .codecError => 2
  | .streamExhausted => 3
  | .streamOverflow => 4
  | .badOperand => 5
  | .unsupported => 6
  | .arithOverflow => 7
  | .illegalCommand => 8
  | .mbFailure => 9
  | .orderViolation => 10
  | .noGrid => 11

/-- STATUS.ERR, bits [7:0] (10 R22). -/
def statusErr (w : Word) : Nat := w.toNat % 256

/-- STATUS.CAUSE, bits [15:8] (10 R22). -/
def statusCause (w : Word) : Nat := w.toNat / 256 % 256

/-- STATUS.BUSY, bit [16] (10 R22). -/
def statusBusy (w : Word) : Bool := w.getLsbD 16

/-- STATUS[31:17], reserved, read 0 (10 R22; 93 I13). -/
def statusReserved (w : Word) : Nat := w.toNat / 131072

/-- STATUS as a command's end writes it: ERR, CAUSE, BUSY 0, reserved bits 0 (60 R409). -/
def statusWord (err cause : Nat) : Word := BitVec.ofNat 32 (err % 256 + cause % 256 * 256)

/-- ERRACC after a command ends with code `err`: bit `err` set when the code is not 0 (10 R23; 60 R409). -/
def accumulate (acc : Word) (err : Nat) : Word :=
  if err = 0 then acc else acc ||| BitVec.ofNat 32 (2 ^ err)

end Sys2Proof.Machine
end

