-- ==== Sys2Proof/Machine/Ops.lean ====
section
/-! DEFINITION. The named operations over memories, registers and the bit stream, the end of a command (60 R409), the
write-set of a dirty error (60 R411), and the one shape every command runs in (30 R100; 60 R410, R411, R413). -/

namespace Sys2Proof.Machine

/-! ### Sparse memories: rising keys, and no entry that reads as an unlisted one does -/

/-- What element `a` reads as; an unlisted element reads as 0 (log 2). -/
def memRead {w : Nat} : List (Nat × BitVec w) → Nat → BitVec w
  | [], _ => 0#w
  | (k, v) :: t, a => if k = a then v else memRead t a

/-- Drop the entries of element `a`. -/
def memErase {w : Nat} : List (Nat × BitVec w) → Nat → List (Nat × BitVec w)
  | [], _ => []
  | (k, v) :: t, a => if k = a then memErase t a else (k, v) :: memErase t a

/-- Put an entry before the first one of a greater key. -/
def memInsert {w : Nat} : List (Nat × BitVec w) → Nat → BitVec w → List (Nat × BitVec w)
  | [], a, x => [(a, x)]
  | (k, v) :: t, a, x => if a < k then (a, x) :: (k, v) :: t else (k, v) :: memInsert t a x

/-- Write element `a`; writing 0, what an unlisted element reads as, removes its entry. -/
def memWrite {w : Nat} (m : List (Nat × BitVec w)) (a : Nat) (x : BitVec w) : List (Nat × BitVec w) :=
  if x = 0#w then memErase m a else memInsert (memErase m a) a x

/-- The canonical form: keys rise strictly, all below `size`, and no listed element is 0. -/
def memWf {w : Nat} (size : Nat) : List (Nat × BitVec w) → Bool
  | [] => true
  | (k, v) :: t => decide (k < size) && decide (v ≠ 0#w) && t.all (fun c => decide (k < c.1)) && memWf size t

/-! ### Register files and block buffers -/

/-- ARG[i] as its 32 bits (10 R24). -/
def State.getArg (s : State) (i : Nat) : Word := s.arg.getD i 0

/-- RES[i] (10 R25). -/
def State.getRes (s : State) (i : Nat) : Word := s.res.getD i 0

/-- RES[i] <- w (30 R105). -/
def State.setRes (s : State) (i : Nat) (w : Word) : State := { s with res := s.res.setIfInBounds i w }

/-- RES[i] <- v for an integer in int32, or an unsigned pattern of at most 32 bits (30 R105). -/
def State.setResInt (s : State) (i : Nat) (v : Int) : State := s.setRes i (BitVec.ofInt 32 v)

/-- RES[i], RES[i+1], ... <- the listed integers. -/
def State.setResList (s : State) (i : Nat) : List Int → State
  | [] => s
  | v :: vs => (s.setResInt i v).setResList (i + 1) vs

/-- Sixteen elements from a function of the raster index. -/
def vec16 (f : Nat → Word) : Vec16 :=
  #v[f 0, f 1, f 2, f 3, f 4, f 5, f 6, f 7, f 8, f 9, f 10, f 11, f 12, f 13, f 14, f 15]

/-- Four elements from a function of the index. -/
def vec4 (f : Nat → Word) : Vec4 := #v[f 0, f 1, f 2, f 3]

/-- The signed elements of a buffer, in index order. -/
def vecInts {n : Nat} (v : Vector Word n) : List Int := v.toList.map BitVec.toInt

/-! ### The end of a command -/

/-- A command ends with code `err` (60 R409): STATUS is written once, ERRACC collects the code. -/
def State.endCommand (s : State) (err cause : Nat) : State :=
  { s with status := statusWord err cause, errAcc := accumulate s.errAcc err }

/-- The command completed: code 0. -/
def State.succeed (s : State) : State := s.endCommand 0 0

/-- The command ended with error `e` (not MbFailure): CAUSE is 0. -/
def State.fail (s : State) (e : Err) : State := s.endCommand e.code 0

/-- MbFailure with the code of the error that failed the macroblock in CAUSE (60 R408). -/
def State.failMb (s : State) (cause : Err) : State := s.endCommand Err.mbFailure.code cause.code

/-! ### The bit stream -/

/-- The bound stream: BSBUF, the base byte, the length and the position in bits (10 R26; 20 R72). -/
structure Stream where
  buf : List Host.Cell
  base : Nat
  len : Nat
  pos : Nat
  deriving DecidableEq, Repr

/-- StreamBit(p) (40 R140; 20 R72). -/
def Stream.bit (st : Stream) (p : Nat) : Bool := (memRead st.buf (st.base + p / 8)).getLsbD (7 - p % 8)

/-- A byte with bit `k` set to `b` and its other bits kept (40 R140). -/
def byteSetBit (x : Byte) (k : Nat) (b : Bool) : Byte :=
  if b then x ||| BitVec.ofNat 8 (2 ^ k) else x &&& ~~~(BitVec.ofNat 8 (2 ^ k))

/-- SetStreamBit(p, b) (40 R140): that one bit, and no other bit of its byte. -/
def Stream.setBit (st : Stream) (p : Nat) (b : Bool) : Stream :=
  { st with buf := memWrite st.buf (st.base + p / 8) (byteSetBit (memRead st.buf (st.base + p / 8)) (7 - p % 8) b) }

/-- The `n` stream bits from position `p` on. -/
def Stream.bits (st : Stream) (p n : Nat) : List Bool := (List.range n).map (fun k => st.bit (p + k))

/-- Write a bit string at position `p`; BS_POS is left. -/
def Stream.putBits (st : Stream) (p : Nat) : List Bool → Stream
  | [] => st
  | b :: bs => (st.setBit p b).putBits (p + 1) bs

/-- val(s): a bit string read as a binary number, its first bit most significant (00 R12). -/
def bitsVal (bs : List Bool) : Nat := bs.foldl (fun v b => 2 * v + b.toNat) 0

/-- The low `n` bits of `v`, MSB first (20 R74). -/
def bitsOf (n v : Nat) : List Bool := (List.range n).map (fun k => v.testBit (n - 1 - k))

/-- The bits of a codeword on the wire (42 R180). -/
def codewordBits (c : Codeword) : List Bool := bitsOf c.len c.pat

/-- The failing check of a rule: `require c else e` (00 R15). -/
def require (c : Bool) (e : Err) : Except Err Unit := if c then .ok () else .error e

/-- BSRead(n) (40 R143): both checks come before any bit is read. -/
def Stream.read (st : Stream) (n : Int) : Except Err (Nat × Stream) := do
  require (decide (0 ≤ n ∧ n ≤ 32)) .badOperand
  require (decide (st.pos + n.toNat ≤ st.len)) .streamExhausted
  return (bitsVal (st.bits st.pos n.toNat), { st with pos := st.pos + n.toNat })

/-- BSRead(1) as a bit. -/
def Stream.readBit (st : Stream) : Except Err (Bool × Stream) := do
  require (decide (st.pos + 1 ≤ st.len)) .streamExhausted
  return (st.bit st.pos, { st with pos := st.pos + 1 })

/-- BSWrite(n, v) (40 R144): both checks come before any bit is written; `v` is taken modulo 2^32. -/
def Stream.write (st : Stream) (n v : Int) : Except Err Stream := do
  require (decide (0 ≤ n ∧ n ≤ 32)) .badOperand
  require (decide (st.pos + n.toNat ≤ st.len)) .streamOverflow
  let u := (v % 4294967296).toNat
  return { st.putBits st.pos (bitsOf n.toNat u) with pos := st.pos + n.toNat }

/-- BSWrite of a codeword. -/
def Stream.writeCode (st : Stream) (c : Codeword) : Except Err Stream := st.write c.len c.pat

/-- The state's bound stream. -/
def State.stream (s : State) : Stream :=
  { buf := s.bsbuf, base := s.bsBase.toNat, len := s.bsLen.toNat, pos := s.bsPos.toNat }

/-- Put a stream's contents and position back; BS_BASE and BS_LEN are BS_BIND's alone (10 R26). -/
def State.setStream (s : State) (st : Stream) : State :=
  { s with bsbuf := st.buf, bsPos := BitVec.ofNat 32 st.pos }

/-! ### Sample planes and macroblock records -/

/-- The width of a plane: 16 * MAX_MBW for luma, 8 * MAX_MBW for chroma (10 R35). -/
def planeWidth (c : Config) : Plane → Nat
  | .y => 16 * c.maxMbw
  | .cb => 8 * c.maxMbw
  | .cr => 8 * c.maxMbw

/-- The height of a plane (10 R35). -/
def planeHeight (c : Config) : Plane → Nat
  | .y => 16 * c.maxMbh
  | .cb => 8 * c.maxMbh
  | .cr => 8 * c.maxMbh

/-- The number of elements of a plane. -/
def planeSize (c : Config) (p : Plane) : Nat := planeHeight c p * planeWidth c p

/-- Whether element (row, col) of a plane exists. -/
def inPlane (c : Config) (p : Plane) (row col : Nat) : Bool :=
  decide (row < planeHeight c p) && decide (col < planeWidth c p)

/-- The index of element (row, col) of a plane. -/
def planeIndex (c : Config) (p : Plane) (row col : Nat) : Nat := row * planeWidth c p + col

/-- An input plane. -/
def State.pin (s : State) : Plane → ElemMem
  | .y => s.pinY
  | .cb => s.pinCb
  | .cr => s.pinCr

/-- An output plane. -/
def State.pout (s : State) : Plane → ElemMem
  | .y => s.poutY
  | .cb => s.poutCb
  | .cr => s.poutCr

/-- Replace an input plane. -/
def State.setPin (s : State) (p : Plane) (m : ElemMem) : State :=
  match p with
  | .y => { s with pinY := m }
  | .cb => { s with pinCb := m }
  | .cr => { s with pinCr := m }

/-- Replace an output plane. -/
def State.setPout (s : State) (p : Plane) (m : ElemMem) : State :=
  match p with
  | .y => { s with poutY := m }
  | .cb => { s with poutCb := m }
  | .cr => { s with poutCr := m }

/-- PIN element (row, col). -/
def State.pinAt (s : State) (p : Plane) (row col : Nat) : Word := memRead (s.pin p) (planeIndex s.cfg p row col)

/-- POUT element (row, col). -/
def State.poutAt (s : State) (p : Plane) (row col : Nat) : Word := memRead (s.pout p) (planeIndex s.cfg p row col)

/-- POUT[row][col] <- w. -/
def State.writePout (s : State) (p : Plane) (row col : Nat) (w : Word) : State :=
  s.setPout p (memWrite (s.pout p) (planeIndex s.cfg p row col) w)

/-- PIN[row][col] <- w. -/
def State.writePin (s : State) (p : Plane) (row col : Nat) (w : Word) : State :=
  s.setPin p (memWrite (s.pin p) (planeIndex s.cfg p row col) w)

/-- MBS[m]; an index the store does not have reads as a fresh record (no command uses one: 45 R330, log 9). -/
def State.record (s : State) (m : Nat) : MbRecord := s.mbs.getD m MbRecord.fresh

/-- MBS[m] <- r. -/
def State.setRecord (s : State) (m : Nat) (r : MbRecord) : State := { s with mbs := s.mbs.set m r }

/-- mbx = m mod GRID_W (45 R320). -/
def State.mbx (s : State) (m : Nat) : Nat := m % s.gridW.toNat

/-- mby = m div GRID_W (45 R320). -/
def State.mby (s : State) (m : Nat) : Nat := m / s.gridW.toNat

/-- The side of a macroblock's view in a plane: 16 luma, 8 chroma samples (45 R320). -/
def viewSide : Plane → Nat
  | .y => 16
  | .cb => 8
  | .cr => 8

/-- The row of sample `i` of macroblock m's view (45 R320). -/
def State.viewRow (s : State) (p : Plane) (m i : Nat) : Nat := viewSide p * s.mby m + i

/-- The column of sample `j` of macroblock m's view (45 R320). -/
def State.viewCol (s : State) (p : Plane) (m j : Nat) : Nat := viewSide p * s.mbx m + j

/-! ### The write-set of a dirty error -/

/-- What a dirty error of a command may leave at any value (60 R411): its first `resCount` RES registers, BS_POS,
the stream bits from BS_POS on when the command writes the stream, its first `cbCount` CB elements, the record of
a macroblock command and, for MB_DECODE, its output views. -/
structure WriteSet where
  resCount : Nat
  writesStream : Bool
  cbCount : Nat
  mb : Option Nat
  writesPout : Bool
  deriving DecidableEq, Repr

/-- The first `n` elements take the given values. -/
def fillVec {n : Nat} (v : Vector Word n) (count : Nat) (f : Nat → Word) : Vector Word n :=
  Vector.ofFn (fun i => if i.val < count then f i.val else v[i])

/-- A record of free values, with DONE = 0 (60 R411, R408). -/
def freeRecord (d : Nat) : MbRecord where
  done := false
  slice := Config.freeWord d (.mb .slice)
  stype := Config.freeWord d (.mb .stype)
  qp := Config.freeWord d (.mb .qp)
  intra := Config.freeBool d (.mb .intra)
  pm := Config.freeWord d (.mb .pm)
  cpm := Config.freeWord d (.mb .cpm)
  mvx := Config.freeWord d (.mb .mvx)
  mvy := Config.freeWord d (.mb .mvy)
  mvdx := Config.freeWord d (.mb .mvdx)
  mvdy := Config.freeWord d (.mb .mvdy)
  cbp := Config.freeWord d (.mb .cbp)
  mbType := Config.freeWord d (.mb .mbType)
  tcy := Vector.ofFn (fun b => Config.freeWord d (.mb (.tcy b)))
  tcc := Vector.ofFn (fun c => Vector.ofFn (fun b => Config.freeWord d (.mb (.tcc c b))))
  coefY := Vector.ofFn (fun b => Vector.ofFn (fun k => Config.freeWord d (.mb (.coefY b k))))
  coefC := Vector.ofFn (fun c => Vector.ofFn (fun b => Vector.ofFn (fun k => Config.freeWord d (.mb (.coefC c b k)))))
  dcY := Vector.ofFn (fun k => Config.freeWord d (.mb (.dcY k)))
  dcC := Vector.ofFn (fun c => Vector.ofFn (fun k => Config.freeWord d (.mb (.dcC c k))))

/-- Every pair (i, j) with i, j < n, row by row. -/
def square (n : Nat) : List (Nat × Nat) := (List.range n).flatMap (fun i => (List.range n).map (fun j => (i, j)))

/-- Macroblock m's view in an output plane takes free values (60 R411). -/
def State.spoilView (s : State) (d : Nat) (p : Plane) (m : Nat) : State :=
  (square (viewSide p)).foldl
    (fun t ij => t.writePout p (t.viewRow p m ij.1) (t.viewCol p m ij.2) (Config.freeWord d (.pout p ij.1 ij.2))) s

/-- The three output views of macroblock m take free values. -/
def State.spoilViews (s : State) (d m : Nat) : State :=
  ((s.spoilView d .y m).spoilView d .cb m).spoilView d .cr m

/-- The stream after a dirty error (60 R411): BS_POS anywhere in [its start value, BS_LEN], and for a writing command
any bits from the start value to BS_LEN - 1. -/
def Stream.spoil (st : Stream) (d : Nat) (writes : Bool) : Stream :=
  let bits := if writes then (List.range (st.len - st.pos)).map (fun k => Config.freeBit d (st.pos + k)) else []
  { st.putBits st.pos bits with pos := st.pos + Config.freeNat d % (st.len - st.pos + 1) }

/-- The write-set of a dirty error at free values, the output views apart (60 R411). -/
def State.spoilCore (s : State) (ws : WriteSet) : State :=
  { s.setStream (s.stream.spoil s.draws ws.writesStream) with
    draws := s.draws + 1
    res := fillVec s.res ws.resCount (fun i => Config.freeWord s.draws (.res i))
    cb := fillVec s.cb ws.cbCount (fun k => Config.freeWord s.draws (.cb k))
    mbs := match ws.mb with
      | none => s.mbs
      | some m => s.mbs.set m (freeRecord s.draws) }

/-- The state a dirty error leaves before STATUS and ERRACC are written (60 R411): the write-set at free values,
and everything else as it was. -/
def State.spoil (s : State) (ws : WriteSet) : State :=
  match ws.mb with
  | none => s.spoilCore ws
  | some m => if ws.writesPout then (s.spoilCore ws).spoilViews s.draws m else s.spoilCore ws

/-! ### The shape of a command -/

/-- A command that ends with the first error its rule raises (60 R413): `check` is the part before the first write,
whose errors are clean and change only STATUS and ERRACC (60 R410); `body` is the rest, whose errors leave what
`onError` says; a command that completes writes code 0. -/
def State.command {α : Type} (s : State) (check : Except Err α) (body : α → Except Err State)
    (onError : α → Err → State) : State :=
  match check with
  | .error e => s.fail e
  | .ok a =>
    match body a with
    | .error e => onError a e
    | .ok t => t.succeed

/-- A command all of whose errors are clean (60 R410). -/
def State.cleanCommand (s : State) (body : Except Err State) : State :=
  s.command body .ok (fun _ e => s.fail e)

/-- A command whose errors in `body` are dirty, with the write-set `ws` (60 R411). -/
def State.dirtyCommand {α : Type} (s : State) (ws : WriteSet) (check : Except Err α)
    (body : α → Except Err State) : State :=
  s.command check body (fun _ e => (s.spoil ws).fail e)

/-- The check of a decode command's first BSRead(1) (40 R143). It comes before the command's first write, so that its
StreamExhausted is clean (60 R410; log 6). -/
def State.firstRead (s : State) : Except Err Unit :=
  require (decide (s.stream.pos + 1 ≤ s.stream.len)) .streamExhausted

/-- A decode command of 41, 42 or 43: its operand checks and its first read's check are clean (60 R410), and what
follows that read is dirty, with the write-set `ws` (60 R411). -/
def State.decodeCommand {α : Type} (s : State) (ws : WriteSet) (check : Except Err α)
    (body : α → Except Err State) : State :=
  s.dirtyCommand ws (do let a ← check; s.firstRead; return a) body

/-- A macroblock command: an error of the coding phase ends it with MbFailure (45 R339; 60 R408). -/
def State.mbCommand {α : Type} (s : State) (ws : α → WriteSet) (check : Except Err α)
    (body : α → Except Err State) : State :=
  s.command check body (fun a e => (s.spoil (ws a)).failMb e)

end Sys2Proof.Machine
end

