-- ==== Sys2Proof/Machine/Operands.lean ====
section
/-! DEFINITION. How a command reads its operands (30 R104): ARG[i] as a signed 32-bit integer, or as a flag word whose
unnamed bits must be 0; and the range check of a value computed for a 32-bit destination (00 R11; 44 R270). -/

namespace Sys2Proof.Machine

/-- ARG[i] as a signed 32-bit integer (30 R104). -/
def State.argInt (s : State) (i : Nat) : Int := (s.getArg i).toInt

/-- ARG[i][k], a bit of a flag word (30 R104). -/
def State.argFlag (s : State) (i k : Nat) : Bool := (s.getArg i).getLsbD k

/-- The bits of a flag word that a rule does not name are 0 (30 R104, R107). -/
def onlyFlags (w : Word) (named : List Nat) : Bool :=
  (List.range 32).all (fun k => named.contains k || !w.getLsbD k)

/-- `v` lies in [lo, hi]. -/
def within (lo hi v : Int) : Bool := decide (lo ≤ v) && decide (v ≤ hi)

/-- `v` fits a signed 32-bit register or element (00 R11). -/
def inInt32 (v : Int) : Bool := within (-2147483648) 2147483647 v

/-- A value computed for a 32-bit register, element or named intermediate (00 R11; 44 R270; 60 R407). -/
def chk (v : Int) : Except Err Int := if inInt32 v then .ok v else .error .arithOverflow

/-- Abs(a) (00 R11). -/
def absInt (a : Int) : Int := a.natAbs

/-- Sign(a) is -1 when a < 0 and +1 otherwise (00 R11). -/
def signInt (a : Int) : Int := if a < 0 then -1 else 1

/-- Clip3(lo, hi, a) (00 R11). -/
def clip3 (lo hi a : Int) : Int := min hi (max lo a)

/-- Median(a, b, c) (00 R11). -/
def medianInt (a b c : Int) : Int := a + b + c - min a (min b c) - max a (max b c)

/-- a << n is a * 2^n (00 R11). -/
def shl (a : Int) (n : Nat) : Int := a * (2 ^ n : Nat)

/-- a >> n is floor(a / 2^n), for any sign of a (00 R11). -/
def sar (a : Int) (n : Nat) : Int := a / (2 ^ n : Nat)

/-- A QP operand lies in [0,51] (00 R4; 60 R404). -/
def isQp (v : Int) : Bool := within 0 51 v

/-- The 32-bit element that holds an integer. -/
def toWord (v : Int) : Word := BitVec.ofInt 32 v

end Sys2Proof.Machine
end

