-- ==== Sys2Proof/Machine/BitStream.lean ====
section
/-! DEFINITION. The bit-stream reader/writer commands (40_bitstream.md), and the write of one codeword that every
encode command shares (92 D13). -/

namespace Sys2Proof.Machine

/-- Write a codeword at BS_POS and report it: RES0 = numBits, RES1 = pattern (42 R180; 92 D13). -/
def State.emit (s : State) (c : Codeword) : Except Err State := do
  let st ← s.stream.writeCode c
  return ((s.setStream st).setResInt 0 c.len).setResInt 1 c.pat

/-- The operand checks of BS_BIND (40 R150), on mathematical integers. -/
def bindCheck (s : State) : Except Err Unit := do
  require (decide (0 ≤ s.argInt 0 ∧ 0 ≤ s.argInt 1)) .badOperand
  require (decide (8 * s.argInt 1 + s.argInt 0 ≤ 8 * s.cfg.bsBytes)) .badOperand

/-- BS_BASE <- ARG1, BS_LEN <- ARG0, BS_POS <- 0 (40 R150). -/
def State.bindStream (s : State) : State := { s with bsBase := s.getArg 1, bsLen := s.getArg 0, bsPos := 0 }

/-- BS_BIND (40 R150): bind the cursor to a stream in BSBUF. -/
def execBsBind (s : State) : Host.Outcome State Fault Refusal :=
  .next (s.cleanCommand (do bindCheck s; return s.bindStream))

/-- BS_RESET (40 R151): rewind the cursor. -/
def execBsReset (s : State) : Host.Outcome State Fault Refusal := .next { s with bsPos := 0 }.succeed

/-- RES[0] <- BSRead(n), written as an unsigned pattern. -/
def State.readToRes (s : State) (n : Int) : Except Err State := do
  let (v, st) ← s.stream.read n
  return (s.setStream st).setResInt 0 v

/-- BS_READ1 (40 R152): read one bit; StreamExhausted is clean. -/
def execBsRead1 (s : State) : Host.Outcome State Fault Refusal := .next (s.cleanCommand (s.readToRes 1))

/-- BS_READN (40 R153): read ARG0 bits; both errors are clean. -/
def execBsReadn (s : State) : Host.Outcome State Fault Refusal := .next (s.cleanCommand (s.readToRes (s.argInt 0)))

/-- BS_WRITE (40 R154): write the low ARG0 bits of ARG1; both errors are clean. -/
def execBsWrite (s : State) : Host.Outcome State Fault Refusal :=
  .next (s.cleanCommand (do
    let st ← s.stream.write (s.argInt 0) (s.argInt 1)
    return s.setStream st))

end Sys2Proof.Machine
end

