-- ==== Sys2Proof/Machine/ExpGolomb.lean ====
section
/-! DEFINITION. The Exp-Golomb codes and commands (41_expgolomb.md). -/

namespace Sys2Proof.Machine

/-! ### The codes -/

/-- UE_MAX_BITS (00 R10). -/
def ueMaxBits : Nat := 32

/-- UeCode(v) (41 R160): a zero-length codeword when the code would exceed 32 bits. -/
def ueCode (v : Nat) : Codeword :=
  let lz := Nat.log2 (v + 1)
  if 2 * lz + 1 > ueMaxBits then ⟨0, 0⟩ else ⟨2 * lz + 1, v + 1⟩

/-- The codeword of ue(v), or TableMiss where UeCode gives none (41 R170). -/
def ueCodeword (v : Nat) : Except Err Codeword :=
  if (ueCode v).len = 0 then .error .tableMiss else .ok (ueCode v)

/-- Read zero bits up to the next 1 bit and count them; after `limit` zeros, TableMiss (41 R161; 42 R211). -/
def countZeros : Nat → Stream → Except Err (Nat × Stream)
  | 0, _ => .error .tableMiss
  | limit + 1, st => do
    let (b, st) ← st.readBit
    if b then return (0, st)
    else
      let (z, st) ← countZeros limit st
      return (z + 1, st)

/-- UeDecode() (41 R161): 16 zero bits are TableMiss. -/
def ueDecode (st : Stream) : Except Err (Nat × Stream) := do
  let (lz, st) ← countZeros 16 st
  let (suffix, st) ← st.read lz
  return (2 ^ lz - 1 + suffix, st)

/-- SeMap(v) (41 R162). -/
def seMap (v : Int) : Nat := if 0 < v then (2 * v - 1).toNat else (-2 * v).toNat

/-- SeUnmap(k) (41 R162). -/
def seUnmap (k : Nat) : Int := if k % 2 = 1 then ((k + 1) / 2 : Nat) else -((k / 2 : Nat) : Int)

/-- The codeword of se(v) (41 R162). -/
def seCodeword (v : Int) : Except Err Codeword := ueCodeword (seMap v)

/-- se(v), read (41 R173). -/
def seDecode (st : Stream) : Except Err (Int × Stream) := do
  let (k, st) ← ueDecode st
  return (seUnmap k, st)

/-- The codeword of te(v) with range maximum `cmax` (41 R163, R174). -/
def teCodeword (v cmax : Int) : Except Err Codeword := do
  require (decide (1 ≤ cmax)) .badOperand
  require (within 0 cmax v) .tableMiss
  if cmax = 1 then return ⟨1, (1 - v).toNat⟩ else ueCodeword v.toNat

/-! ### The commands -/

/-- The write-set of the decode commands of 41 and 42, whose rules name the first `resCount` RES registers (60 R411). -/
def decodeWrites (resCount : Nat) : WriteSet := ⟨resCount, false, 0, none, false⟩

/-- UE_ENC (41 R170). -/
def execUeEnc (s : State) : Host.Outcome State Fault Refusal :=
  .next (s.cleanCommand (do
    require (decide (0 ≤ s.argInt 0)) .badOperand
    let c ← ueCodeword (s.argInt 0).toNat
    s.emit c))

/-- UE_DEC (41 R171): its errors are dirty, but for a first read with no bit left (60 R410; log 6). -/
def execUeDec (s : State) : Host.Outcome State Fault Refusal :=
  .next (s.decodeCommand (decodeWrites 1) (.ok ()) (fun _ => do
    let (v, st) ← ueDecode s.stream
    return (s.setStream st).setResInt 0 v))

/-- SE_ENC (41 R172). -/
def execSeEnc (s : State) : Host.Outcome State Fault Refusal :=
  .next (s.cleanCommand (do
    let c ← seCodeword (s.argInt 0)
    s.emit c))

/-- SE_DEC (41 R173): its errors are dirty, but for a first read with no bit left (60 R410; log 6). -/
def execSeDec (s : State) : Host.Outcome State Fault Refusal :=
  .next (s.decodeCommand (decodeWrites 1) (.ok ()) (fun _ => do
    let (v, st) ← seDecode s.stream
    return (s.setStream st).setResInt 0 v))

/-- TE_ENC (41 R174). -/
def execTeEnc (s : State) : Host.Outcome State Fault Refusal :=
  .next (s.cleanCommand (do
    let c ← teCodeword (s.argInt 0) (s.argInt 1)
    s.emit c))

/-- TE_DEC with cMax = 1 (41 R175): one bit, inverted; its only error is clean. -/
def State.teDecodeBit (s : State) : Except Err State := do
  let (v, st) ← s.stream.read 1
  return (s.setStream st).setResInt 0 (1 - (v : Int))

/-- TE_DEC with cMax >= 2 (41 R175): ue(v), and a value above cMax is TableMiss. -/
def State.teDecodeUe (s : State) : Except Err State := do
  let (v, st) ← ueDecode s.stream
  require (decide ((v : Int) ≤ s.argInt 1)) .tableMiss
  return (s.setStream st).setResInt 0 v

/-- TE_DEC (41 R175): BadOperand is clean; with cMax = 1 so is StreamExhausted; with cMax >= 2 the errors
are dirty, but for a first read with no bit left (60 R410; log 6). -/
def execTeDec (s : State) : Host.Outcome State Fault Refusal :=
  .next (if s.argInt 1 = 1 then s.cleanCommand s.teDecodeBit
    else s.decodeCommand (decodeWrites 1) (require (decide (1 ≤ s.argInt 1)) .badOperand) (fun _ => s.teDecodeUe))

end Sys2Proof.Machine
end

