-- ==== Sys2Proof/Machine/Tables.lean ====
section
/-! DEFINITION. The code tables of 42_vlc_codebooks.md section 2, transcribed row by row (log 17): a codeword is written
⟨its length, its bits as a binary numeral⟩, so that each entry can be held beside the spec's. They are the core's
read-only tables (10 R40). -/

namespace Sys2Proof.Machine

/-- A code table: each symbol of its domain with its codeword (42 R180). -/
abbrev VlcTable (σ : Type) := List (σ × Codeword)

/-! ### coeff_token (42 R183): symbols are (TotalCoeff, TrailingOnes) -/

/-- coeff_token, column "0 <= nC < 2", part 1 of 4 (42 R183). -/
def ct01A : VlcTable (Nat × Nat) :=
  [((0, 0), ⟨1, 0b1⟩), ((1, 0), ⟨6, 0b000101⟩),
   ((1, 1), ⟨2, 0b01⟩), ((2, 0), ⟨8, 0b00000111⟩),
   ((2, 1), ⟨6, 0b000100⟩), ((2, 2), ⟨3, 0b001⟩),
   ((3, 0), ⟨9, 0b000000111⟩), ((3, 1), ⟨8, 0b00000110⟩),
   ((3, 2), ⟨7, 0b0000101⟩), ((3, 3), ⟨5, 0b00011⟩),
   ((4, 0), ⟨10, 0b0000000111⟩), ((4, 1), ⟨9, 0b000000110⟩),
   ((4, 2), ⟨8, 0b00000101⟩), ((4, 3), ⟨6, 0b000011⟩),
   ((5, 0), ⟨11, 0b00000000111⟩), ((5, 1), ⟨10, 0b0000000110⟩)]

/-- coeff_token, column "0 <= nC < 2", part 2 of 4 (42 R183). -/
def ct01B : VlcTable (Nat × Nat) :=
  [((5, 2), ⟨9, 0b000000101⟩), ((5, 3), ⟨7, 0b0000100⟩),
   ((6, 0), ⟨13, 0b0000000001111⟩), ((6, 1), ⟨11, 0b00000000110⟩),
   ((6, 2), ⟨10, 0b0000000101⟩), ((6, 3), ⟨8, 0b00000100⟩),
   ((7, 0), ⟨13, 0b0000000001011⟩), ((7, 1), ⟨13, 0b0000000001110⟩),
   ((7, 2), ⟨11, 0b00000000101⟩), ((7, 3), ⟨9, 0b000000100⟩),
   ((8, 0), ⟨13, 0b0000000001000⟩), ((8, 1), ⟨13, 0b0000000001010⟩),
   ((8, 2), ⟨13, 0b0000000001101⟩), ((8, 3), ⟨10, 0b0000000100⟩),
   ((9, 0), ⟨14, 0b00000000001111⟩), ((9, 1), ⟨14, 0b00000000001110⟩)]

/-- coeff_token, column "0 <= nC < 2", part 3 of 4 (42 R183). -/
def ct01C : VlcTable (Nat × Nat) :=
  [((9, 2), ⟨13, 0b0000000001001⟩), ((9, 3), ⟨11, 0b00000000100⟩),
   ((10, 0), ⟨14, 0b00000000001011⟩), ((10, 1), ⟨14, 0b00000000001010⟩),
   ((10, 2), ⟨14, 0b00000000001101⟩), ((10, 3), ⟨13, 0b0000000001100⟩),
   ((11, 0), ⟨15, 0b000000000001111⟩), ((11, 1), ⟨15, 0b000000000001110⟩),
   ((11, 2), ⟨14, 0b00000000001001⟩), ((11, 3), ⟨14, 0b00000000001100⟩),
   ((12, 0), ⟨15, 0b000000000001011⟩), ((12, 1), ⟨15, 0b000000000001010⟩),
   ((12, 2), ⟨15, 0b000000000001101⟩), ((12, 3), ⟨14, 0b00000000001000⟩),
   ((13, 0), ⟨16, 0b0000000000001111⟩), ((13, 1), ⟨15, 0b000000000000001⟩)]

/-- coeff_token, column "0 <= nC < 2", part 4 of 4 (42 R183). -/
def ct01D : VlcTable (Nat × Nat) :=
  [((13, 2), ⟨15, 0b000000000001001⟩), ((13, 3), ⟨15, 0b000000000001100⟩),
   ((14, 0), ⟨16, 0b0000000000001011⟩), ((14, 1), ⟨16, 0b0000000000001110⟩),
   ((14, 2), ⟨16, 0b0000000000001101⟩), ((14, 3), ⟨15, 0b000000000001000⟩),
   ((15, 0), ⟨16, 0b0000000000000111⟩), ((15, 1), ⟨16, 0b0000000000001010⟩),
   ((15, 2), ⟨16, 0b0000000000001001⟩), ((15, 3), ⟨16, 0b0000000000001100⟩),
   ((16, 0), ⟨16, 0b0000000000000100⟩), ((16, 1), ⟨16, 0b0000000000000110⟩),
   ((16, 2), ⟨16, 0b0000000000000101⟩), ((16, 3), ⟨16, 0b0000000000001000⟩)]

/-- coeff_token, column "0 <= nC < 2" (42 R183). -/
def ct01 : VlcTable (Nat × Nat) := ct01A ++ ct01B ++ ct01C ++ ct01D

/-- coeff_token, column "2 <= nC < 4", part 1 of 4 (42 R183). -/
def ct23A : VlcTable (Nat × Nat) :=
  [((0, 0), ⟨2, 0b11⟩), ((1, 0), ⟨6, 0b001011⟩),
   ((1, 1), ⟨2, 0b10⟩), ((2, 0), ⟨6, 0b000111⟩),
   ((2, 1), ⟨5, 0b00111⟩), ((2, 2), ⟨3, 0b011⟩),
   ((3, 0), ⟨7, 0b0000111⟩), ((3, 1), ⟨6, 0b001010⟩),
   ((3, 2), ⟨6, 0b001001⟩), ((3, 3), ⟨4, 0b0101⟩),
   ((4, 0), ⟨8, 0b00000111⟩), ((4, 1), ⟨6, 0b000110⟩),
   ((4, 2), ⟨6, 0b000101⟩), ((4, 3), ⟨4, 0b0100⟩),
   ((5, 0), ⟨8, 0b00000100⟩), ((5, 1), ⟨7, 0b0000110⟩)]

/-- coeff_token, column "2 <= nC < 4", part 2 of 4 (42 R183). -/
def ct23B : VlcTable (Nat × Nat) :=
  [((5, 2), ⟨7, 0b0000101⟩), ((5, 3), ⟨5, 0b00110⟩),
   ((6, 0), ⟨9, 0b000000111⟩), ((6, 1), ⟨8, 0b00000110⟩),
   ((6, 2), ⟨8, 0b00000101⟩), ((6, 3), ⟨6, 0b001000⟩),
   ((7, 0), ⟨11, 0b00000001111⟩), ((7, 1), ⟨9, 0b000000110⟩),
   ((7, 2), ⟨9, 0b000000101⟩), ((7, 3), ⟨6, 0b000100⟩),
   ((8, 0), ⟨11, 0b00000001011⟩), ((8, 1), ⟨11, 0b00000001110⟩),
   ((8, 2), ⟨11, 0b00000001101⟩), ((8, 3), ⟨7, 0b0000100⟩),
   ((9, 0), ⟨12, 0b000000001111⟩), ((9, 1), ⟨11, 0b00000001010⟩)]

/-- coeff_token, column "2 <= nC < 4", part 3 of 4 (42 R183). -/
def ct23C : VlcTable (Nat × Nat) :=
  [((9, 2), ⟨11, 0b00000001001⟩), ((9, 3), ⟨9, 0b000000100⟩),
   ((10, 0), ⟨12, 0b000000001011⟩), ((10, 1), ⟨12, 0b000000001110⟩),
   ((10, 2), ⟨12, 0b000000001101⟩), ((10, 3), ⟨11, 0b00000001100⟩),
   ((11, 0), ⟨12, 0b000000001000⟩), ((11, 1), ⟨12, 0b000000001010⟩),
   ((11, 2), ⟨12, 0b000000001001⟩), ((11, 3), ⟨11, 0b00000001000⟩),
   ((12, 0), ⟨13, 0b0000000001111⟩), ((12, 1), ⟨13, 0b0000000001110⟩),
   ((12, 2), ⟨13, 0b0000000001101⟩), ((12, 3), ⟨12, 0b000000001100⟩),
   ((13, 0), ⟨13, 0b0000000001011⟩), ((13, 1), ⟨13, 0b0000000001010⟩)]

/-- coeff_token, column "2 <= nC < 4", part 4 of 4 (42 R183). -/
def ct23D : VlcTable (Nat × Nat) :=
  [((13, 2), ⟨13, 0b0000000001001⟩), ((13, 3), ⟨13, 0b0000000001100⟩),
   ((14, 0), ⟨13, 0b0000000000111⟩), ((14, 1), ⟨14, 0b00000000001011⟩),
   ((14, 2), ⟨13, 0b0000000000110⟩), ((14, 3), ⟨13, 0b0000000001000⟩),
   ((15, 0), ⟨14, 0b00000000001001⟩), ((15, 1), ⟨14, 0b00000000001000⟩),
   ((15, 2), ⟨14, 0b00000000001010⟩), ((15, 3), ⟨13, 0b0000000000001⟩),
   ((16, 0), ⟨14, 0b00000000000111⟩), ((16, 1), ⟨14, 0b00000000000110⟩),
   ((16, 2), ⟨14, 0b00000000000101⟩), ((16, 3), ⟨14, 0b00000000000100⟩)]

/-- coeff_token, column "2 <= nC < 4" (42 R183). -/
def ct23 : VlcTable (Nat × Nat) := ct23A ++ ct23B ++ ct23C ++ ct23D

/-- coeff_token, column "4 <= nC < 8", part 1 of 4 (42 R183). -/
def ct47A : VlcTable (Nat × Nat) :=
  [((0, 0), ⟨4, 0b1111⟩), ((1, 0), ⟨6, 0b001111⟩),
   ((1, 1), ⟨4, 0b1110⟩), ((2, 0), ⟨6, 0b001011⟩),
   ((2, 1), ⟨5, 0b01111⟩), ((2, 2), ⟨4, 0b1101⟩),
   ((3, 0), ⟨6, 0b001000⟩), ((3, 1), ⟨5, 0b01100⟩),
   ((3, 2), ⟨5, 0b01110⟩), ((3, 3), ⟨4, 0b1100⟩),
   ((4, 0), ⟨7, 0b0001111⟩), ((4, 1), ⟨5, 0b01010⟩),
   ((4, 2), ⟨5, 0b01011⟩), ((4, 3), ⟨4, 0b1011⟩),
   ((5, 0), ⟨7, 0b0001011⟩), ((5, 1), ⟨5, 0b01000⟩)]

/-- coeff_token, column "4 <= nC < 8", part 2 of 4 (42 R183). -/
def ct47B : VlcTable (Nat × Nat) :=
  [((5, 2), ⟨5, 0b01001⟩), ((5, 3), ⟨4, 0b1010⟩),
   ((6, 0), ⟨7, 0b0001001⟩), ((6, 1), ⟨6, 0b001110⟩),
   ((6, 2), ⟨6, 0b001101⟩), ((6, 3), ⟨4, 0b1001⟩),
   ((7, 0), ⟨7, 0b0001000⟩), ((7, 1), ⟨6, 0b001010⟩),
   ((7, 2), ⟨6, 0b001001⟩), ((7, 3), ⟨4, 0b1000⟩),
   ((8, 0), ⟨8, 0b00001111⟩), ((8, 1), ⟨7, 0b0001110⟩),
   ((8, 2), ⟨7, 0b0001101⟩), ((8, 3), ⟨5, 0b01101⟩),
   ((9, 0), ⟨8, 0b00001011⟩), ((9, 1), ⟨8, 0b00001110⟩)]

/-- coeff_token, column "4 <= nC < 8", part 3 of 4 (42 R183). -/
def ct47C : VlcTable (Nat × Nat) :=
  [((9, 2), ⟨7, 0b0001010⟩), ((9, 3), ⟨6, 0b001100⟩),
   ((10, 0), ⟨9, 0b000001111⟩), ((10, 1), ⟨8, 0b00001010⟩),
   ((10, 2), ⟨8, 0b00001101⟩), ((10, 3), ⟨7, 0b0001100⟩),
   ((11, 0), ⟨9, 0b000001011⟩), ((11, 1), ⟨9, 0b000001110⟩),
   ((11, 2), ⟨8, 0b00001001⟩), ((11, 3), ⟨8, 0b00001100⟩),
   ((12, 0), ⟨9, 0b000001000⟩), ((12, 1), ⟨9, 0b000001010⟩),
   ((12, 2), ⟨9, 0b000001101⟩), ((12, 3), ⟨8, 0b00001000⟩),
   ((13, 0), ⟨10, 0b0000001101⟩), ((13, 1), ⟨9, 0b000000111⟩)]

/-- coeff_token, column "4 <= nC < 8", part 4 of 4 (42 R183). -/
def ct47D : VlcTable (Nat × Nat) :=
  [((13, 2), ⟨9, 0b000001001⟩), ((13, 3), ⟨9, 0b000001100⟩),
   ((14, 0), ⟨10, 0b0000001001⟩), ((14, 1), ⟨10, 0b0000001100⟩),
   ((14, 2), ⟨10, 0b0000001011⟩), ((14, 3), ⟨10, 0b0000001010⟩),
   ((15, 0), ⟨10, 0b0000000101⟩), ((15, 1), ⟨10, 0b0000001000⟩),
   ((15, 2), ⟨10, 0b0000000111⟩), ((15, 3), ⟨10, 0b0000000110⟩),
   ((16, 0), ⟨10, 0b0000000001⟩), ((16, 1), ⟨10, 0b0000000100⟩),
   ((16, 2), ⟨10, 0b0000000011⟩), ((16, 3), ⟨10, 0b0000000010⟩)]

/-- coeff_token, column "4 <= nC < 8" (42 R183). -/
def ct47 : VlcTable (Nat × Nat) := ct47A ++ ct47B ++ ct47C ++ ct47D

/-- coeff_token, column "8 <= nC", part 1 of 4 (42 R183). -/
def ct8A : VlcTable (Nat × Nat) :=
  [((0, 0), ⟨6, 0b000011⟩), ((1, 0), ⟨6, 0b000000⟩),
   ((1, 1), ⟨6, 0b000001⟩), ((2, 0), ⟨6, 0b000100⟩),
   ((2, 1), ⟨6, 0b000101⟩), ((2, 2), ⟨6, 0b000110⟩),
   ((3, 0), ⟨6, 0b001000⟩), ((3, 1), ⟨6, 0b001001⟩),
   ((3, 2), ⟨6, 0b001010⟩), ((3, 3), ⟨6, 0b001011⟩),
   ((4, 0), ⟨6, 0b001100⟩), ((4, 1), ⟨6, 0b001101⟩),
   ((4, 2), ⟨6, 0b001110⟩), ((4, 3), ⟨6, 0b001111⟩),
   ((5, 0), ⟨6, 0b010000⟩), ((5, 1), ⟨6, 0b010001⟩)]

/-- coeff_token, column "8 <= nC", part 2 of 4 (42 R183). -/
def ct8B : VlcTable (Nat × Nat) :=
  [((5, 2), ⟨6, 0b010010⟩), ((5, 3), ⟨6, 0b010011⟩),
   ((6, 0), ⟨6, 0b010100⟩), ((6, 1), ⟨6, 0b010101⟩),
   ((6, 2), ⟨6, 0b010110⟩), ((6, 3), ⟨6, 0b010111⟩),
   ((7, 0), ⟨6, 0b011000⟩), ((7, 1), ⟨6, 0b011001⟩),
   ((7, 2), ⟨6, 0b011010⟩), ((7, 3), ⟨6, 0b011011⟩),
   ((8, 0), ⟨6, 0b011100⟩), ((8, 1), ⟨6, 0b011101⟩),
   ((8, 2), ⟨6, 0b011110⟩), ((8, 3), ⟨6, 0b011111⟩),
   ((9, 0), ⟨6, 0b100000⟩), ((9, 1), ⟨6, 0b100001⟩)]

/-- coeff_token, column "8 <= nC", part 3 of 4 (42 R183). -/
def ct8C : VlcTable (Nat × Nat) :=
  [((9, 2), ⟨6, 0b100010⟩), ((9, 3), ⟨6, 0b100011⟩),
   ((10, 0), ⟨6, 0b100100⟩), ((10, 1), ⟨6, 0b100101⟩),
   ((10, 2), ⟨6, 0b100110⟩), ((10, 3), ⟨6, 0b100111⟩),
   ((11, 0), ⟨6, 0b101000⟩), ((11, 1), ⟨6, 0b101001⟩),
   ((11, 2), ⟨6, 0b101010⟩), ((11, 3), ⟨6, 0b101011⟩),
   ((12, 0), ⟨6, 0b101100⟩), ((12, 1), ⟨6, 0b101101⟩),
   ((12, 2), ⟨6, 0b101110⟩), ((12, 3), ⟨6, 0b101111⟩),
   ((13, 0), ⟨6, 0b110000⟩), ((13, 1), ⟨6, 0b110001⟩)]

/-- coeff_token, column "8 <= nC", part 4 of 4 (42 R183). -/
def ct8D : VlcTable (Nat × Nat) :=
  [((13, 2), ⟨6, 0b110010⟩), ((13, 3), ⟨6, 0b110011⟩),
   ((14, 0), ⟨6, 0b110100⟩), ((14, 1), ⟨6, 0b110101⟩),
   ((14, 2), ⟨6, 0b110110⟩), ((14, 3), ⟨6, 0b110111⟩),
   ((15, 0), ⟨6, 0b111000⟩), ((15, 1), ⟨6, 0b111001⟩),
   ((15, 2), ⟨6, 0b111010⟩), ((15, 3), ⟨6, 0b111011⟩),
   ((16, 0), ⟨6, 0b111100⟩), ((16, 1), ⟨6, 0b111101⟩),
   ((16, 2), ⟨6, 0b111110⟩), ((16, 3), ⟨6, 0b111111⟩)]

/-- coeff_token, column "8 <= nC" (42 R183). -/
def ct8 : VlcTable (Nat × Nat) := ct8A ++ ct8B ++ ct8C ++ ct8D

/-- coeff_token, column "nC == -1", part 1 of 1 (42 R183). -/
def ctM1A : VlcTable (Nat × Nat) :=
  [((0, 0), ⟨2, 0b01⟩), ((1, 0), ⟨6, 0b000111⟩),
   ((1, 1), ⟨1, 0b1⟩), ((2, 0), ⟨6, 0b000100⟩),
   ((2, 1), ⟨6, 0b000110⟩), ((2, 2), ⟨3, 0b001⟩),
   ((3, 0), ⟨6, 0b000011⟩), ((3, 1), ⟨7, 0b0000011⟩),
   ((3, 2), ⟨7, 0b0000010⟩), ((3, 3), ⟨6, 0b000101⟩),
   ((4, 0), ⟨6, 0b000010⟩), ((4, 1), ⟨8, 0b00000011⟩),
   ((4, 2), ⟨8, 0b00000010⟩), ((4, 3), ⟨7, 0b0000000⟩)]

/-- coeff_token, column "nC == -1" (42 R183). -/
def ctM1 : VlcTable (Nat × Nat) := ctM1A

/-- coeff_token, column "nC == -2", part 1 of 2 (42 R183). -/
def ctM2A : VlcTable (Nat × Nat) :=
  [((0, 0), ⟨1, 0b1⟩), ((1, 0), ⟨7, 0b0001111⟩),
   ((1, 1), ⟨2, 0b01⟩), ((2, 0), ⟨7, 0b0001110⟩),
   ((2, 1), ⟨7, 0b0001101⟩), ((2, 2), ⟨3, 0b001⟩),
   ((3, 0), ⟨9, 0b000000111⟩), ((3, 1), ⟨7, 0b0001100⟩),
   ((3, 2), ⟨7, 0b0001011⟩), ((3, 3), ⟨5, 0b00001⟩),
   ((4, 0), ⟨9, 0b000000110⟩), ((4, 1), ⟨9, 0b000000101⟩),
   ((4, 2), ⟨7, 0b0001010⟩), ((4, 3), ⟨6, 0b000001⟩),
   ((5, 0), ⟨10, 0b0000000111⟩), ((5, 1), ⟨10, 0b0000000110⟩)]

/-- coeff_token, column "nC == -2", part 2 of 2 (42 R183). -/
def ctM2B : VlcTable (Nat × Nat) :=
  [((5, 2), ⟨9, 0b000000100⟩), ((5, 3), ⟨7, 0b0001001⟩),
   ((6, 0), ⟨11, 0b00000000111⟩), ((6, 1), ⟨11, 0b00000000110⟩),
   ((6, 2), ⟨10, 0b0000000101⟩), ((6, 3), ⟨7, 0b0001000⟩),
   ((7, 0), ⟨12, 0b000000000111⟩), ((7, 1), ⟨12, 0b000000000110⟩),
   ((7, 2), ⟨11, 0b00000000101⟩), ((7, 3), ⟨10, 0b0000000100⟩),
   ((8, 0), ⟨13, 0b0000000000111⟩), ((8, 1), ⟨12, 0b000000000101⟩),
   ((8, 2), ⟨12, 0b000000000100⟩), ((8, 3), ⟨11, 0b00000000100⟩)]

/-- coeff_token, column "nC == -2" (42 R183). -/
def ctM2 : VlcTable (Nat × Nat) := ctM2A ++ ctM2B

/-! ### total_zeros (42 R184, R185, R186) -/

/-- total_zeros of a 4x4 block (42 R184), column "TC=1". -/
def tz4_1 : VlcTable Nat :=
  [(0, ⟨1, 0b1⟩), (1, ⟨3, 0b011⟩), (2, ⟨3, 0b010⟩), (3, ⟨4, 0b0011⟩),
   (4, ⟨4, 0b0010⟩), (5, ⟨5, 0b00011⟩), (6, ⟨5, 0b00010⟩), (7, ⟨6, 0b000011⟩),
   (8, ⟨6, 0b000010⟩), (9, ⟨7, 0b0000011⟩), (10, ⟨7, 0b0000010⟩), (11, ⟨8, 0b00000011⟩),
   (12, ⟨8, 0b00000010⟩), (13, ⟨9, 0b000000011⟩), (14, ⟨9, 0b000000010⟩), (15, ⟨9, 0b000000001⟩)]

/-- total_zeros of a 4x4 block (42 R184), column "TC=2". -/
def tz4_2 : VlcTable Nat :=
  [(0, ⟨3, 0b111⟩), (1, ⟨3, 0b110⟩), (2, ⟨3, 0b101⟩), (3, ⟨3, 0b100⟩),
   (4, ⟨3, 0b011⟩), (5, ⟨4, 0b0101⟩), (6, ⟨4, 0b0100⟩), (7, ⟨4, 0b0011⟩),
   (8, ⟨4, 0b0010⟩), (9, ⟨5, 0b00011⟩), (10, ⟨5, 0b00010⟩), (11, ⟨6, 0b000011⟩),
   (12, ⟨6, 0b000010⟩), (13, ⟨6, 0b000001⟩), (14, ⟨6, 0b000000⟩)]

/-- total_zeros of a 4x4 block (42 R184), column "TC=3". -/
def tz4_3 : VlcTable Nat :=
  [(0, ⟨4, 0b0101⟩), (1, ⟨3, 0b111⟩), (2, ⟨3, 0b110⟩), (3, ⟨3, 0b101⟩),
   (4, ⟨4, 0b0100⟩), (5, ⟨4, 0b0011⟩), (6, ⟨3, 0b100⟩), (7, ⟨3, 0b011⟩),
   (8, ⟨4, 0b0010⟩), (9, ⟨5, 0b00011⟩), (10, ⟨5, 0b00010⟩), (11, ⟨6, 0b000001⟩),
   (12, ⟨5, 0b00001⟩), (13, ⟨6, 0b000000⟩)]

/-- total_zeros of a 4x4 block (42 R184), column "TC=4". -/
def tz4_4 : VlcTable Nat :=
  [(0, ⟨5, 0b00011⟩), (1, ⟨3, 0b111⟩), (2, ⟨4, 0b0101⟩), (3, ⟨4, 0b0100⟩),
   (4, ⟨3, 0b110⟩), (5, ⟨3, 0b101⟩), (6, ⟨3, 0b100⟩), (7, ⟨4, 0b0011⟩),
   (8, ⟨3, 0b011⟩), (9, ⟨4, 0b0010⟩), (10, ⟨5, 0b00010⟩), (11, ⟨5, 0b00001⟩),
   (12, ⟨5, 0b00000⟩)]

/-- total_zeros of a 4x4 block (42 R184), column "TC=5". -/
def tz4_5 : VlcTable Nat :=
  [(0, ⟨4, 0b0101⟩), (1, ⟨4, 0b0100⟩), (2, ⟨4, 0b0011⟩), (3, ⟨3, 0b111⟩),
   (4, ⟨3, 0b110⟩), (5, ⟨3, 0b101⟩), (6, ⟨3, 0b100⟩), (7, ⟨3, 0b011⟩),
   (8, ⟨4, 0b0010⟩), (9, ⟨5, 0b00001⟩), (10, ⟨4, 0b0001⟩), (11, ⟨5, 0b00000⟩)]

/-- total_zeros of a 4x4 block (42 R184), column "TC=6". -/
def tz4_6 : VlcTable Nat :=
  [(0, ⟨6, 0b000001⟩), (1, ⟨5, 0b00001⟩), (2, ⟨3, 0b111⟩), (3, ⟨3, 0b110⟩),
   (4, ⟨3, 0b101⟩), (5, ⟨3, 0b100⟩), (6, ⟨3, 0b011⟩), (7, ⟨3, 0b010⟩),
   (8, ⟨4, 0b0001⟩), (9, ⟨3, 0b001⟩), (10, ⟨6, 0b000000⟩)]

/-- total_zeros of a 4x4 block (42 R184), column "TC=7". -/
def tz4_7 : VlcTable Nat :=
  [(0, ⟨6, 0b000001⟩), (1, ⟨5, 0b00001⟩), (2, ⟨3, 0b101⟩), (3, ⟨3, 0b100⟩),
   (4, ⟨3, 0b011⟩), (5, ⟨2, 0b11⟩), (6, ⟨3, 0b010⟩), (7, ⟨4, 0b0001⟩),
   (8, ⟨3, 0b001⟩), (9, ⟨6, 0b000000⟩)]

/-- total_zeros of a 4x4 block (42 R184), column "TC=8". -/
def tz4_8 : VlcTable Nat :=
  [(0, ⟨6, 0b000001⟩), (1, ⟨4, 0b0001⟩), (2, ⟨5, 0b00001⟩), (3, ⟨3, 0b011⟩),
   (4, ⟨2, 0b11⟩), (5, ⟨2, 0b10⟩), (6, ⟨3, 0b010⟩), (7, ⟨3, 0b001⟩),
   (8, ⟨6, 0b000000⟩)]

/-- total_zeros of a 4x4 block (42 R184), column "TC=9". -/
def tz4_9 : VlcTable Nat :=
  [(0, ⟨6, 0b000001⟩), (1, ⟨6, 0b000000⟩), (2, ⟨4, 0b0001⟩), (3, ⟨2, 0b11⟩),
   (4, ⟨2, 0b10⟩), (5, ⟨3, 0b001⟩), (6, ⟨2, 0b01⟩), (7, ⟨5, 0b00001⟩)]

/-- total_zeros of a 4x4 block (42 R184), column "TC=10". -/
def tz4_10 : VlcTable Nat :=
  [(0, ⟨5, 0b00001⟩), (1, ⟨5, 0b00000⟩), (2, ⟨3, 0b001⟩), (3, ⟨2, 0b11⟩),
   (4, ⟨2, 0b10⟩), (5, ⟨2, 0b01⟩), (6, ⟨4, 0b0001⟩)]

/-- total_zeros of a 4x4 block (42 R184), column "TC=11". -/
def tz4_11 : VlcTable Nat :=
  [(0, ⟨4, 0b0000⟩), (1, ⟨4, 0b0001⟩), (2, ⟨3, 0b001⟩), (3, ⟨3, 0b010⟩),
   (4, ⟨1, 0b1⟩), (5, ⟨3, 0b011⟩)]

/-- total_zeros of a 4x4 block (42 R184), column "TC=12". -/
def tz4_12 : VlcTable Nat :=
  [(0, ⟨4, 0b0000⟩), (1, ⟨4, 0b0001⟩), (2, ⟨2, 0b01⟩), (3, ⟨1, 0b1⟩),
   (4, ⟨3, 0b001⟩)]

/-- total_zeros of a 4x4 block (42 R184), column "TC=13". -/
def tz4_13 : VlcTable Nat :=
  [(0, ⟨3, 0b000⟩), (1, ⟨3, 0b001⟩), (2, ⟨1, 0b1⟩), (3, ⟨2, 0b01⟩)]

/-- total_zeros of a 4x4 block (42 R184), column "TC=14". -/
def tz4_14 : VlcTable Nat :=
  [(0, ⟨2, 0b00⟩), (1, ⟨2, 0b01⟩), (2, ⟨1, 0b1⟩)]

/-- total_zeros of a 4x4 block (42 R184), column "TC=15". -/
def tz4_15 : VlcTable Nat :=
  [(0, ⟨1, 0b0⟩), (1, ⟨1, 0b1⟩)]

/-- total_zeros of a 4x4 block (42 R184): the column of TotalCoeff; no other value has one. -/
def tz4 : Nat → VlcTable Nat
  | 1 => tz4_1
  | 2 => tz4_2
  | 3 => tz4_3
  | 4 => tz4_4
  | 5 => tz4_5
  | 6 => tz4_6
  | 7 => tz4_7
  | 8 => tz4_8
  | 9 => tz4_9
  | 10 => tz4_10
  | 11 => tz4_11
  | 12 => tz4_12
  | 13 => tz4_13
  | 14 => tz4_14
  | 15 => tz4_15
  | _ => []

/-- total_zeros of a 2x2 chroma DC block (42 R185), column "TC=1". -/
def tz22_1 : VlcTable Nat :=
  [(0, ⟨1, 0b1⟩), (1, ⟨2, 0b01⟩), (2, ⟨3, 0b001⟩), (3, ⟨3, 0b000⟩)]

/-- total_zeros of a 2x2 chroma DC block (42 R185), column "TC=2". -/
def tz22_2 : VlcTable Nat :=
  [(0, ⟨1, 0b1⟩), (1, ⟨2, 0b01⟩), (2, ⟨2, 0b00⟩)]

/-- total_zeros of a 2x2 chroma DC block (42 R185), column "TC=3". -/
def tz22_3 : VlcTable Nat :=
  [(0, ⟨1, 0b1⟩), (1, ⟨1, 0b0⟩)]

/-- total_zeros of a 2x2 chroma DC block (42 R185): the column of TotalCoeff; no other value has one. -/
def tz22 : Nat → VlcTable Nat
  | 1 => tz22_1
  | 2 => tz22_2
  | 3 => tz22_3
  | _ => []

/-- total_zeros of a 2x4 chroma DC block (42 R186), column "TC=1". -/
def tz24_1 : VlcTable Nat :=
  [(0, ⟨1, 0b1⟩), (1, ⟨3, 0b010⟩), (2, ⟨3, 0b011⟩), (3, ⟨4, 0b0010⟩),
   (4, ⟨4, 0b0011⟩), (5, ⟨4, 0b0001⟩), (6, ⟨5, 0b00001⟩), (7, ⟨5, 0b00000⟩)]

/-- total_zeros of a 2x4 chroma DC block (42 R186), column "TC=2". -/
def tz24_2 : VlcTable Nat :=
  [(0, ⟨3, 0b000⟩), (1, ⟨2, 0b01⟩), (2, ⟨3, 0b001⟩), (3, ⟨3, 0b100⟩),
   (4, ⟨3, 0b101⟩), (5, ⟨3, 0b110⟩), (6, ⟨3, 0b111⟩)]

/-- total_zeros of a 2x4 chroma DC block (42 R186), column "TC=3". -/
def tz24_3 : VlcTable Nat :=
  [(0, ⟨3, 0b000⟩), (1, ⟨3, 0b001⟩), (2, ⟨2, 0b01⟩), (3, ⟨2, 0b10⟩),
   (4, ⟨3, 0b110⟩), (5, ⟨3, 0b111⟩)]

/-- total_zeros of a 2x4 chroma DC block (42 R186), column "TC=4". -/
def tz24_4 : VlcTable Nat :=
  [(0, ⟨3, 0b110⟩), (1, ⟨2, 0b00⟩), (2, ⟨2, 0b01⟩), (3, ⟨2, 0b10⟩),
   (4, ⟨3, 0b111⟩)]

/-- total_zeros of a 2x4 chroma DC block (42 R186), column "TC=5". -/
def tz24_5 : VlcTable Nat :=
  [(0, ⟨2, 0b00⟩), (1, ⟨2, 0b01⟩), (2, ⟨2, 0b10⟩), (3, ⟨2, 0b11⟩)]

/-- total_zeros of a 2x4 chroma DC block (42 R186), column "TC=6". -/
def tz24_6 : VlcTable Nat :=
  [(0, ⟨2, 0b00⟩), (1, ⟨2, 0b01⟩), (2, ⟨1, 0b1⟩)]

/-- total_zeros of a 2x4 chroma DC block (42 R186), column "TC=7". -/
def tz24_7 : VlcTable Nat :=
  [(0, ⟨1, 0b0⟩), (1, ⟨1, 0b1⟩)]

/-- total_zeros of a 2x4 chroma DC block (42 R186): the column of TotalCoeff; no other value has one. -/
def tz24 : Nat → VlcTable Nat
  | 1 => tz24_1
  | 2 => tz24_2
  | 3 => tz24_3
  | 4 => tz24_4
  | 5 => tz24_5
  | 6 => tz24_6
  | 7 => tz24_7
  | _ => []

/-! ### run_before (42 R187): column 7 is ">6" -/

/-- run_before (42 R187), column "zerosLeft=1". -/
def runBefore_1 : VlcTable Nat :=
  [(0, ⟨1, 0b1⟩), (1, ⟨1, 0b0⟩)]

/-- run_before (42 R187), column "2". -/
def runBefore_2 : VlcTable Nat :=
  [(0, ⟨1, 0b1⟩), (1, ⟨2, 0b01⟩), (2, ⟨2, 0b00⟩)]

/-- run_before (42 R187), column "3". -/
def runBefore_3 : VlcTable Nat :=
  [(0, ⟨2, 0b11⟩), (1, ⟨2, 0b10⟩), (2, ⟨2, 0b01⟩), (3, ⟨2, 0b00⟩)]

/-- run_before (42 R187), column "4". -/
def runBefore_4 : VlcTable Nat :=
  [(0, ⟨2, 0b11⟩), (1, ⟨2, 0b10⟩), (2, ⟨2, 0b01⟩), (3, ⟨3, 0b001⟩),
   (4, ⟨3, 0b000⟩)]

/-- run_before (42 R187), column "5". -/
def runBefore_5 : VlcTable Nat :=
  [(0, ⟨2, 0b11⟩), (1, ⟨2, 0b10⟩), (2, ⟨3, 0b011⟩), (3, ⟨3, 0b010⟩),
   (4, ⟨3, 0b001⟩), (5, ⟨3, 0b000⟩)]

/-- run_before (42 R187), column "6". -/
def runBefore_6 : VlcTable Nat :=
  [(0, ⟨2, 0b11⟩), (1, ⟨3, 0b000⟩), (2, ⟨3, 0b001⟩), (3, ⟨3, 0b011⟩),
   (4, ⟨3, 0b010⟩), (5, ⟨3, 0b101⟩), (6, ⟨3, 0b100⟩)]

/-- run_before (42 R187), column ">6". -/
def runBefore_7 : VlcTable Nat :=
  [(0, ⟨3, 0b111⟩), (1, ⟨3, 0b110⟩), (2, ⟨3, 0b101⟩), (3, ⟨3, 0b100⟩),
   (4, ⟨3, 0b011⟩), (5, ⟨3, 0b010⟩), (6, ⟨3, 0b001⟩), (7, ⟨4, 0b0001⟩),
   (8, ⟨5, 0b00001⟩), (9, ⟨6, 0b000001⟩), (10, ⟨7, 0b0000001⟩), (11, ⟨8, 0b00000001⟩),
   (12, ⟨9, 0b000000001⟩), (13, ⟨10, 0b0000000001⟩), (14, ⟨11, 0b00000000001⟩)]

/-- run_before (42 R187): the column of min(zerosLeft, 7); no other value has one. -/
def runBefore : Nat → VlcTable Nat
  | 1 => runBefore_1
  | 2 => runBefore_2
  | 3 => runBefore_3
  | 4 => runBefore_4
  | 5 => runBefore_5
  | 6 => runBefore_6
  | 7 => runBefore_7
  | _ => []

/-! ### coded_block_pattern (42 R189) -/

/-- Decode direction, intra column: the pattern of each codeNum (42 R189). -/
def cbpTabIntra : List Nat :=
  [47, 31, 15, 0, 23, 27, 29, 30, 7, 11, 13, 14, 39, 43, 45, 46,
   16, 3, 5, 10, 12, 19, 21, 26, 28, 35, 37, 42, 44, 1, 2, 4,
   8, 17, 18, 20, 24, 6, 9, 22, 25, 32, 33, 34, 36, 40, 38, 41]

/-- Decode direction, inter column (42 R189). -/
def cbpTabInter : List Nat :=
  [0, 16, 1, 2, 4, 8, 32, 3, 5, 10, 12, 15, 47, 7, 11, 13,
   14, 6, 9, 31, 35, 37, 42, 44, 33, 34, 36, 40, 39, 43, 45, 46,
   17, 18, 20, 24, 19, 21, 26, 28, 23, 27, 29, 30, 22, 25, 38, 41]

/-- Encode direction, intra column: the codeNum of each pattern (42 R189). -/
def cbpInvIntra : List Nat :=
  [3, 29, 30, 17, 31, 18, 37, 8, 32, 38, 19, 9, 20, 10, 11, 2,
   16, 33, 34, 21, 35, 22, 39, 4, 36, 40, 23, 5, 24, 6, 7, 1,
   41, 42, 43, 25, 44, 26, 46, 12, 45, 47, 27, 13, 28, 14, 15, 0]

/-- Encode direction, inter column (42 R189). -/
def cbpInvInter : List Nat :=
  [0, 2, 3, 7, 4, 8, 17, 13, 5, 18, 9, 14, 10, 15, 16, 11,
   1, 32, 33, 36, 34, 37, 44, 40, 35, 45, 38, 41, 39, 42, 43, 19,
   6, 24, 25, 20, 26, 21, 46, 28, 27, 47, 22, 29, 23, 30, 31, 12]

end Sys2Proof.Machine
end

