-- ==== Sys2Proof/Machine/Vlc.lean ====
section
/-! DEFINITION. The structured VLC codebook commands (42_vlc_codebooks.md section 3) over the tables of section 2. -/

namespace Sys2Proof.Machine

/-! ### Table lookup and table walk -/

/-- The codeword of a symbol, or none outside the table's domain (42 R180). -/
def tableCode {σ : Type} [DecidableEq σ] (t : VlcTable σ) (x : σ) : Option Codeword :=
  match t with
  | [] => none
  | (y, c) :: rest => if y = x then some c else tableCode rest x

/-- The symbol of a bit string that is a codeword of the table (42 R181). -/
def tableSymbol {σ : Type} (t : VlcTable σ) (c : Codeword) : Option σ :=
  match t with
  | [] => none
  | (y, d) :: rest => if d = c then some y else tableSymbol rest c

/-- MaxLen(T), the longest codeword's length (42 R181). -/
def maxLen {σ : Type} (t : VlcTable σ) : Nat := t.foldl (fun n e => max n e.2.len) 0

/-- The codeword of a symbol, or TableMiss (42 R180). -/
def lookupCode {σ : Type} [DecidableEq σ] (t : VlcTable σ) (x : σ) : Except Err Codeword :=
  match tableCode t x with
  | some c => .ok c
  | none => .error .tableMiss

/-- The walk of 42 R181 with `fuel` bits still allowed and the string `s` read so far. -/
def walkFrom {σ : Type} (t : VlcTable σ) : Nat → Codeword → Stream → Except Err (σ × Stream)
  | 0, _, _ => .error .tableMiss
  | fuel + 1, s, st => do
    let (b, st) ← st.readBit
    let s := Codeword.mk (s.len + 1) (2 * s.pat + b.toNat)
    match tableSymbol t s with
    | some x => return (x, st)
    | none => walkFrom t fuel s st

/-- VlcWalk(T) (42 R181): one bit at a time up to the first codeword; TableMiss after MaxLen(T) bits. -/
def vlcWalk {σ : Type} (t : VlcTable σ) (st : Stream) : Except Err (σ × Stream) := walkFrom t (maxLen t) ⟨0, 0⟩ st

/-! ### coeff_token -/

/-- The classes of the context nC (42 R182). -/
inductive CtClass where
  | c01
  | c23
  | c47
  | c8
  | cM1
  | cM2
  deriving DecidableEq, Repr

/-- NcClass(nC) (42 R182): a negative nC below -2 has no table, BadOperand (92 D14). -/
def ncClass (nc : Int) : Except Err CtClass :=
  if nc < -2 then .error .badOperand
  else if nc = -2 then .ok .cM2
  else if nc = -1 then .ok .cM1
  else if nc < 2 then .ok .c01
  else if nc < 4 then .ok .c23
  else if nc < 8 then .ok .c47
  else .ok .c8

/-- CT[c] (42 R183). -/
def ctTable : CtClass → VlcTable (Nat × Nat)
  | .c01 => ct01
  | .c23 => ct23
  | .c47 => ct47
  | .c8 => ct8
  | .cM1 => ctM1
  | .cM2 => ctM2

/-- MaxTC(c) (42 R182, R200). -/
def maxTc : CtClass → Nat
  | .cM1 => 4
  | .cM2 => 8
  | _ => 16

/-- The coeff_token codeword of (TotalCoeff, TrailingOnes) under nC (42 R200). -/
def coeffToken (tc t1 nc : Int) : Except Err Codeword := do
  let c ← ncClass nc
  require (within 0 (maxTc c) tc && within 0 (min 3 tc) t1) .tableMiss
  lookupCode (ctTable c) (tc.toNat, t1.toNat)

/-! ### total_zeros, run_before, level_prefix, coded_block_pattern -/

/-- The total_zeros codeword of a 4x4 block (42 R202). -/
def tz4Code (tz tc : Int) : Except Err Codeword := do
  require (within 1 15 tc && within 0 (16 - tc) tz) .tableMiss
  lookupCode (tz4 tc.toNat) tz.toNat

/-- The total_zeros codeword of a 2x2 chroma DC block (42 R204). -/
def tz22Code (tz tc : Int) : Except Err Codeword := do
  require (within 1 3 tc && within 0 (4 - tc) tz) .tableMiss
  lookupCode (tz22 tc.toNat) tz.toNat

/-- The total_zeros codeword of a 2x4 chroma DC block (42 R206). -/
def tz24Code (tz tc : Int) : Except Err Codeword := do
  require (within 1 7 tc && within 0 (8 - tc) tz) .tableMiss
  lookupCode (tz24 tc.toNat) tz.toNat

/-- The run_before column of zerosLeft: every zerosLeft of 7 or more shares one (42 R187). -/
def rbTable (zl : Nat) : VlcTable Nat := runBefore (min zl 7)

/-- The run_before codeword (42 R208). -/
def rbCode (rb zl : Int) : Except Err Codeword := do
  require (decide (1 ≤ zl) && within 0 (min zl 14) rb) .tableMiss
  lookupCode (rbTable zl.toNat) rb.toNat

/-- LEVEL_PREFIX_MAX (00 R10). -/
def levelPrefixMax : Nat := 31

/-- The level_prefix codeword: v zero bits and a 1 bit (42 R188). -/
def prefixCode (v : Nat) : Codeword := ⟨v + 1, 1⟩

/-- level_prefix, read: after 32 zero bits, TableMiss (42 R211). -/
def prefixDecode (st : Stream) : Except Err (Nat × Stream) := countZeros (levelPrefixMax + 1) st

/-- CBPTAB[f][k] (42 R189): column 1 is intra, 0 inter. -/
def cbpTab (intra : Bool) (k : Nat) : Nat := if intra then cbpTabIntra.getD k 0 else cbpTabInter.getD k 0

/-- CBPINV[f][p] (42 R189). -/
def cbpInv (intra : Bool) (p : Nat) : Nat := if intra then cbpInvIntra.getD p 0 else cbpInvInter.getD p 0

/-- The codeword of me(v) (42 R212): the pattern mapped to codeNum, then ue(v). -/
def cbpCodeword (intra : Bool) (p : Int) : Except Err Codeword := do
  require (within 0 47 p) .tableMiss
  ueCodeword (cbpInv intra p.toNat)

/-- me(v), read (42 R213): a codeNum above 47 is TableMiss. -/
def cbpDecode (intra : Bool) (st : Stream) : Except Err (Nat × Stream) := do
  let (k, st) ← ueDecode st
  require (decide (k ≤ 47)) .tableMiss
  return (cbpTab intra k, st)

/-! ### The commands

A decode command's errors that its docstring calls dirty are so from its first bit on; a first read with no bit left is
clean (60 R410; log 6). -/

/-- RES0 <- the symbol a decode step reads. -/
def State.decodeToRes (s : State) (f : Stream → Except Err (Nat × Stream)) : Except Err State := do
  let (v, st) ← f s.stream
  return (s.setStream st).setResInt 0 v

/-- CT_ENC (42 R200). -/
def execCtEnc (s : State) : Host.Outcome State Fault Refusal :=
  .next (s.cleanCommand (do
    let c ← coeffToken (s.argInt 0) (s.argInt 1) (s.argInt 2)
    s.emit c))

/-- CT_DEC (42 R201): BadOperand is clean, the other errors dirty. -/
def execCtDec (s : State) : Host.Outcome State Fault Refusal :=
  .next (s.decodeCommand (decodeWrites 2) (ncClass (s.argInt 2)) (fun c => do
    let (x, st) ← vlcWalk (ctTable c) s.stream
    return ((s.setStream st).setResInt 0 x.1).setResInt 1 x.2))

/-- TZ4_ENC (42 R202). -/
def execTz4Enc (s : State) : Host.Outcome State Fault Refusal :=
  .next (s.cleanCommand (do
    let c ← tz4Code (s.argInt 0) (s.argInt 1)
    s.emit c))

/-- TZ4_DEC (42 R203): TableMiss on TotalCoeff is clean, the walk's errors dirty. -/
def execTz4Dec (s : State) : Host.Outcome State Fault Refusal :=
  .next (s.decodeCommand (decodeWrites 1) (require (within 1 15 (s.argInt 1)) .tableMiss)
    (fun _ => s.decodeToRes (vlcWalk (tz4 (s.argInt 1).toNat))))

/-- TZC2_ENC (42 R204). -/
def execTzc2Enc (s : State) : Host.Outcome State Fault Refusal :=
  .next (s.cleanCommand (do
    let c ← tz22Code (s.argInt 0) (s.argInt 1)
    s.emit c))

/-- TZC2_DEC (42 R205). -/
def execTzc2Dec (s : State) : Host.Outcome State Fault Refusal :=
  .next (s.decodeCommand (decodeWrites 1) (require (within 1 3 (s.argInt 1)) .tableMiss)
    (fun _ => s.decodeToRes (vlcWalk (tz22 (s.argInt 1).toNat))))

/-- TZC4_ENC (42 R206). -/
def execTzc4Enc (s : State) : Host.Outcome State Fault Refusal :=
  .next (s.cleanCommand (do
    let c ← tz24Code (s.argInt 0) (s.argInt 1)
    s.emit c))

/-- TZC4_DEC (42 R207). -/
def execTzc4Dec (s : State) : Host.Outcome State Fault Refusal :=
  .next (s.decodeCommand (decodeWrites 1) (require (within 1 7 (s.argInt 1)) .tableMiss)
    (fun _ => s.decodeToRes (vlcWalk (tz24 (s.argInt 1).toNat))))

/-- RB_ENC (42 R208). -/
def execRbEnc (s : State) : Host.Outcome State Fault Refusal :=
  .next (s.cleanCommand (do
    let c ← rbCode (s.argInt 0) (s.argInt 1)
    s.emit c))

/-- RB_DEC (42 R209): TableMiss on zerosLeft is clean; a run above zerosLeft is TableMiss, dirty. -/
def execRbDec (s : State) : Host.Outcome State Fault Refusal :=
  .next (s.decodeCommand (decodeWrites 1) (require (decide (1 ≤ s.argInt 1)) .tableMiss) (fun _ => do
    let (rb, st) ← vlcWalk (rbTable (s.argInt 1).toNat) s.stream
    require (decide ((rb : Int) ≤ s.argInt 1)) .tableMiss
    return (s.setStream st).setResInt 0 rb))

/-- PFX_ENC (42 R210). -/
def execPfxEnc (s : State) : Host.Outcome State Fault Refusal :=
  .next (s.cleanCommand (do
    require (within 0 levelPrefixMax (s.argInt 0)) .tableMiss
    s.emit (prefixCode (s.argInt 0).toNat)))

/-- PFX_DEC (42 R211): its errors are dirty. -/
def execPfxDec (s : State) : Host.Outcome State Fault Refusal :=
  .next (s.decodeCommand (decodeWrites 1) (.ok ()) (fun _ => s.decodeToRes prefixDecode))

/-- CBP_ENC (42 R212): RES2 is the codeNum. -/
def execCbpEnc (s : State) : Host.Outcome State Fault Refusal :=
  .next (s.cleanCommand (do
    require (decide (s.argInt 1 = 0 ∨ s.argInt 1 = 1)) .badOperand
    let c ← cbpCodeword (decide (s.argInt 1 = 1)) (s.argInt 0)
    let t ← s.emit c
    return t.setResInt 2 (cbpInv (decide (s.argInt 1 = 1)) (s.argInt 0).toNat)))

/-- CBP_DEC (42 R213): BadOperand is clean, the other errors dirty. -/
def execCbpDec (s : State) : Host.Outcome State Fault Refusal :=
  .next (s.decodeCommand (decodeWrites 1) (require (decide (s.argInt 1 = 0 ∨ s.argInt 1 = 1)) .badOperand)
    (fun _ => s.decodeToRes (cbpDecode (decide (s.argInt 1 = 1)))))

end Sys2Proof.Machine
end

