-- ==== Sys2Proof/Machine/Cavlc.lean ====
section
/-! DEFINITION. The CAVLC run-level codec and its commands (43_cavlc.md). -/

namespace Sys2Proof.Machine

/-! ### The coefficient list and its symbols -/

/-- ZIGZAG[k] (43 R230). -/
def zigzag : List Nat := [0, 1, 4, 8, 5, 2, 3, 6, 9, 12, 13, 10, 7, 11, 14, 15]

/-- The signed element of a buffer at an index. -/
def vecInt {n : Nat} (v : Vector Word n) (k : Nat) : Int := (v.getD k 0).toInt

/-- coeffLevel[0 .. 15-skip] of a 4x4 block: B[ZIGZAG[k + skip]] (43 R231). -/
def scanList (b : Vec16) (skip : Nat) : List Int := (zigzag.drop skip).map (vecInt b)

/-- coeffLevel[0 .. 3] of a 2x2 block: raster order (43 R231). -/
def rasterList {n : Nat} (b : Vector Word n) : List Int := (List.range 4).map (vecInt b)

/-- nz: the scan positions of the non-zero coefficients, increasing (43 R232). -/
def nonzeroPositions (cs : List Int) : List Nat := (List.range cs.length).filter (fun k => decide (cs.getD k 0 ≠ 0))

/-- TotalCoeff (43 R232). -/
def totalCoeff (cs : List Int) : Nat := (nonzeroPositions cs).length

/-- level[0], level[1], ...: the non-zero values from the highest frequency on (43 R232). -/
def levels (cs : List Int) : List Int := (cs.filter (fun c => decide (c ≠ 0))).reverse

/-- TrailingOnes: how many of the first three levels are a run of ±1 (43 R232). -/
def trailingOnes (cs : List Int) : Nat := (((levels cs).take 3).takeWhile (fun l => decide (absInt l = 1))).length

/-- total_zeros: nz[TC-1] + 1 - TC, and 0 for an empty block (43 R232). -/
def totalZeros (cs : List Int) : Nat :=
  match (nonzeroPositions cs).reverse with
  | [] => 0
  | last :: _ => last + 1 - totalCoeff cs

/-- The gaps between successive entries of a decreasing list. -/
def gaps : List Nat → List Nat
  | a :: b :: rest => (a - b - 1) :: gaps (b :: rest)
  | _ => []

/-- run[0], ..., run[TC-2] (43 R232). -/
def runs (cs : List Int) : List Nat := gaps (nonzeroPositions cs).reverse

/-! ### Level codes -/

/-- levelCode of a level (43 R233). -/
def levelCodeOf (lv : Int) : Int := if 0 < lv then 2 * lv - 2 else -2 * lv - 1

/-- suffixLength at the start of a block (43 R233). -/
def initialSuffix (tc t1 : Nat) : Nat := if 10 < tc ∧ t1 < 3 then 1 else 0

/-- suffixLength after a level (43 R233). -/
def nextSuffix (sL : Nat) (lv : Int) : Nat :=
  let s := if sL = 0 then 1 else sL
  if shl 3 (s - 1) < absInt lv ∧ s < 6 then s + 1 else s

/-- The escape of LevelCode: the least p in [16, 31] with e < 2^(p-2) - 4096, else CodecError (43 R234). -/
def levelEscape (e : Nat) : Except Err (Nat × Nat × Nat) :=
  match ((List.range 32).drop 16).find? (fun p => decide (e + 4096 < 2 ^ (p - 2))) with
  | some p => .ok (p, e + 4096 - 2 ^ (p - 3), p - 3)
  | none => .error .codecError

/-- LevelCode(lc, sL) (43 R234): (level_prefix, level_suffix, levelSuffixSize). -/
def levelCode (lc sL : Nat) : Except Err (Nat × Nat × Nat) :=
  if sL = 0 ∧ lc < 14 then .ok (lc, 0, 0)
  else if sL = 0 ∧ lc < 30 then .ok (14, lc - 14, 4)
  else if 0 < sL ∧ lc < 15 * 2 ^ sL then .ok (lc / 2 ^ sL, lc % 2 ^ sL, sL)
  else
    let e := lc - 15 * 2 ^ sL - (if sL = 0 then 15 else 0)
    if e < 4096 then .ok (15, e, 12) else levelEscape e

/-! ### Encoding -/

/-- One write of an encode procedure: a codeword, or the raise that stands in its place. -/
abbrev Item := Except Err Codeword

/-- A table miss in a codebook step becomes CodecError; the other codes pass (43 R237; 60 R402). -/
def asCodecError (e : Err) : Err := if e = .tableMiss then .codecError else e

/-- A codebook step inside CAVLC (43 R237). -/
def codecStep {α : Type} (x : Except Err α) : Except Err α := x.mapError asCodecError

/-- trailing_ones_sign_flag (43 R235): 0 for +1, 1 for -1. -/
def signCode (lv : Int) : Codeword := ⟨1, if lv < 0 then 1 else 0⟩

/-- The writes of the levels that are no trailing ones (43 R240); `reduced` holds for i = T1 when T1 < 3. -/
def levelItems (reduced : Bool) (sL : Nat) : List Int → List Item
  | [] => []
  | lv :: rest =>
    let lc := if reduced then levelCodeOf lv - 2 else levelCodeOf lv
    match levelCode lc.toNat sL with
    | .error e => [.error e]
    | .ok (p, suffix, size) =>
      .ok (prefixCode p) :: ((if 0 < size then [.ok ⟨size, suffix⟩] else []) ++ levelItems false (nextSuffix sL lv) rest)

/-- The total_zeros table a block of maxNumCoeff coefficients uses (43 R236). -/
def tzTable (maxN tc : Nat) : VlcTable Nat := if maxN = 4 then tz22 tc else tz4 tc

/-- The total_zeros codeword (43 R236). -/
def tzCode (maxN : Nat) (tz tc : Nat) : Except Err Codeword := if maxN = 4 then tz22Code tz tc else tz4Code tz tc

/-- The writes of run_before (43 R240): nothing once no zeros are left. -/
def runItems (zl : Nat) : List Nat → List Item
  | [] => []
  | r :: rest => if 0 < zl then codecStep (rbCode r zl) :: runItems (zl - r) rest else runItems zl rest

/-- The writes of CavlcEncode(coeffLevel, maxNumCoeff, nC), in order (43 R240; 30 R114). -/
def cavlcItems (cs : List Int) (maxN : Nat) (nc : Int) : List Item :=
  let tc := totalCoeff cs
  let t1 := trailingOnes cs
  let lv := levels cs
  codecStep (coeffToken tc t1 nc) ::
    if 0 < tc then
      (lv.take t1).map (fun l => .ok (signCode l))
        ++ levelItems (decide (t1 < 3)) (initialSuffix tc t1) (lv.drop t1)
        ++ (if tc < maxN then [codecStep (tzCode maxN (totalZeros cs) tc)] else [])
        ++ runItems (totalZeros cs) (runs cs)
    else []

/-- Perform writes in order, up to the first raise. -/
def Stream.writeItems (st : Stream) : List Item → Except Err Stream
  | [] => .ok st
  | .error e :: _ => .error e
  | .ok c :: rest =>
    match st.writeCode c with
    | .error e => .error e
    | .ok st' => st'.writeItems rest

/-- CavlcEncode (43 R240): the stream after it, and (bits, TC, T1). -/
def cavlcEncode (cs : List Int) (maxN : Nat) (nc : Int) (st : Stream) : Except Err ((Nat × Nat × Nat) × Stream) := do
  let st' ← st.writeItems (cavlcItems cs maxN nc)
  return ((st'.pos - st.pos, totalCoeff cs, trailingOnes cs), st')

/-! ### Decoding -/

/-- levelSuffixSize (43 R235). -/
def levelSuffixSize (p sL : Nat) : Nat := if p = 14 ∧ sL = 0 then 4 else if 15 ≤ p then p - 3 else sL

/-- levelCode from level_prefix and level_suffix (43 R235). -/
def levelCodeFrom (p suffix sL : Nat) (reduced : Bool) : Nat :=
  min 15 p * 2 ^ sL + suffix + (if 15 ≤ p ∧ sL = 0 then 15 else 0) + (if 16 ≤ p then 2 ^ (p - 3) - 4096 else 0)
    + (if reduced then 2 else 0)

/-- The level of a levelCode (43 R235). -/
def levelOf (lc : Nat) : Int := if lc % 2 = 0 then sar ((lc : Int) + 2) 1 else sar (-(lc : Int) - 1) 1

/-- One level that is no trailing one (43 R235, R241). -/
def decodeLevel (reduced : Bool) (sL : Nat) (st : Stream) : Except Err (Int × Stream) := do
  let (p, st) ← prefixDecode st
  let (suffix, st) ← st.read (levelSuffixSize p sL)
  return (levelOf (levelCodeFrom p suffix sL reduced), st)

/-- `n` further levels (43 R241). -/
def decodeLevels : Nat → Bool → Nat → Stream → Except Err (List Int × Stream)
  | 0, _, _, st => .ok ([], st)
  | n + 1, reduced, sL, st => do
    let (lv, st) ← decodeLevel reduced sL st
    let (rest, st) ← decodeLevels n false (nextSuffix sL lv) st
    return (lv :: rest, st)

/-- `n` trailing ones (43 R241). -/
def decodeSigns : Nat → Stream → Except Err (List Int × Stream)
  | 0, st => .ok ([], st)
  | n + 1, st => do
    let (b, st) ← st.readBit
    let (rest, st) ← decodeSigns n st
    return ((if b then -1 else 1) :: rest, st)

/-- run[0 .. n-1] and the zeros then left (43 R241). -/
def decodeRuns : Nat → Nat → Stream → Except Err ((List Nat × Nat) × Stream)
  | 0, zl, st => .ok (([], zl), st)
  | n + 1, zl, st =>
    if 0 < zl then do
      let (r, st) ← vlcWalk (rbTable zl) st
      require (decide (r ≤ zl)) .codecError
      let ((rest, left), st) ← decodeRuns n (zl - r) st
      return ((r :: rest, left), st)
    else do
      let ((rest, left), st) ← decodeRuns n zl st
      return ((0 :: rest, left), st)

/-- Levels and runs, both from the highest frequency on, placed in scan order and padded with zeros (43 R241). -/
def placeLevels (maxN : Nat) (lv : List Int) (rs : List Nat) : List Int :=
  let placed := ((lv.zip rs).reverse).flatMap (fun lr => List.replicate lr.2 0 ++ [lr.1])
  placed ++ List.replicate (maxN - placed.length) 0

/-- total_zeros, read when 0 < TC < maxNumCoeff (43 R241). -/
def decodeTotalZeros (maxN tc : Nat) (st : Stream) : Except Err (Nat × Stream) :=
  if tc < maxN then do
    let (tz, st) ← vlcWalk (tzTable maxN tc) st
    require (decide (tz ≤ maxN - tc)) .codecError
    return (tz, st)
  else .ok (0, st)

/-- The part of a block after a coeff_token with TC > 0 (43 R241). -/
def decodeResidual (maxN tc t1 : Nat) (st : Stream) : Except Err (List Int × Stream) := do
  let (ones, st) ← decodeSigns t1 st
  let (rest, st) ← decodeLevels (tc - t1) (decide (t1 < 3)) (initialSuffix tc t1) st
  let (tz, st) ← decodeTotalZeros maxN tc st
  let ((rs, left), st) ← decodeRuns (tc - 1) tz st
  return (placeLevels maxN (ones ++ rest) (rs ++ [left]), st)

/-- What CavlcDecode returns (43 R241). -/
structure Decoded where
  bits : Nat
  tc : Nat
  t1 : Nat
  coeffs : List Int
  deriving DecidableEq, Repr

/-- CavlcDecode with its table misses unconverted (43 R241). -/
def cavlcDecodeRaw (maxN : Nat) (nc : Int) (st : Stream) : Except Err (Decoded × Stream) := do
  let c ← ncClass nc
  let ((tc, t1), st1) ← vlcWalk (ctTable c) st
  require (decide (tc ≤ maxN)) .codecError
  if tc = 0 then return (⟨st1.pos - st.pos, tc, t1, List.replicate maxN 0⟩, st1)
  else
    let (cs, st2) ← decodeResidual maxN tc t1 st1
    return (⟨st2.pos - st.pos, tc, t1, cs⟩, st2)

/-- CavlcDecode (43 R241): every TableMiss inside becomes CodecError (43 R237). -/
def cavlcDecode (maxN : Nat) (nc : Int) (st : Stream) : Except Err (Decoded × Stream) :=
  codecStep (cavlcDecodeRaw maxN nc st)

/-- B[ZIGZAG[k + skip]] <- c[k]; with skip = 1, B[0] is 0 (43 R251; 45 R360). -/
def unscan (cs : List Int) (skip : Nat) : Vec16 :=
  vec16 (fun i => if i = 0 ∧ skip = 1 then 0 else toWord (cs.getD (zigzag.idxOf i - skip) 0))

/-! ### The commands

An error before the first codeword has been read or written is clean (60 R410; log 6), and every later one dirty. -/

/-- The operand checks of the 4x4 commands (43 R250, R251): nC >= 0, dcSkip 0 or 1. -/
def check4 (s : State) : Except Err Unit := do
  require (decide (0 ≤ s.argInt 0)) .badOperand
  require (decide (s.argInt 1 = 0 ∨ s.argInt 1 = 1)) .badOperand

/-- The operand checks of the 2x2 commands (43 R252, R253): nC = -1, dcSkip = 0. -/
def check2 (s : State) : Except Err Unit := do
  require (decide (s.argInt 0 = -1)) .badOperand
  require (decide (s.argInt 1 = 0)) .badOperand

/-- The write-set of the CAVLC commands (43 section 2; 60 R411). -/
def cavlcWrites (writesStream : Bool) (cbCount : Nat) : WriteSet := ⟨3, writesStream, cbCount, none, false⟩

/-- RES0 = bits, RES1 = TotalCoeff, RES2 = TrailingOnes. -/
def State.reportBlock (s : State) (bits tc t1 : Nat) : State := s.setResList 0 [bits, tc, t1]

/-- The first write of a list of writes: its raise, or its codeword's StreamOverflow, comes before the command's first
write and so is clean (60 R410; log 6). -/
def State.firstWrite (s : State) : List Item → Except Err Unit
  | [] => .ok ()
  | x :: _ => do
    let _ ← s.stream.writeCode (← x)

/-- CavlcEncode of a list, reported. -/
def State.encodeBlock (s : State) (cs : List Int) (maxN : Nat) (nc : Int) : Except Err State := do
  let ((bits, tc, t1), st) ← cavlcEncode cs maxN nc s.stream
  return (s.setStream st).reportBlock bits tc t1

/-- A CAVLC encode command: its operand checks and the first write's checks are clean, and what follows that write is
dirty (60 R410, R411). -/
def State.encodeCommand (s : State) (check : Except Err Unit) (cs : List Int) (maxN : Nat) (nc : Int) : State :=
  s.dirtyCommand (cavlcWrites true 0) (do check; s.firstWrite (cavlcItems cs maxN nc))
    (fun _ => s.encodeBlock cs maxN nc)

/-- CAVLC_ENC4 (43 R250). -/
def execCavlcEnc4 (s : State) : Host.Outcome State Fault Refusal :=
  .next (s.encodeCommand (check4 s) (scanList s.cb (s.argInt 1).toNat) (16 - (s.argInt 1).toNat) (s.argInt 0))

/-- CAVLC_DEC4 (43 R251): all sixteen CB elements are written. -/
def execCavlcDec4 (s : State) : Host.Outcome State Fault Refusal :=
  .next (s.decodeCommand (cavlcWrites false 16) (check4 s) (fun _ => do
    let (d, st) ← cavlcDecode (16 - (s.argInt 1).toNat) (s.argInt 0) s.stream
    return { s.setStream st with cb := unscan d.coeffs (s.argInt 1).toNat }.reportBlock d.bits d.tc d.t1))

/-- CAVLC_ENC2 (43 R252): CB[0..3]. -/
def execCavlcEnc2 (s : State) : Host.Outcome State Fault Refusal :=
  .next (s.encodeCommand (check2 s) (rasterList s.cb) 4 (-1))

/-- CAVLC_DEC2 (43 R253): CB[4..15] keep their values. -/
def execCavlcDec2 (s : State) : Host.Outcome State Fault Refusal :=
  .next (s.decodeCommand (cavlcWrites false 4) (check2 s) (fun _ => do
    let (d, st) ← cavlcDecode 4 (-1) s.stream
    return { s.setStream st with cb := fillVec s.cb 4 (fun k => toWord (d.coeffs.getD k 0)) }.reportBlock d.bits d.tc d.t1))

end Sys2Proof.Machine
end

