-- ==== Sys2Proof/Machine/Transform.lean ====
section
/-! DEFINITION. The transform and quantisation arithmetic and commands (44_transform_quant.md). -/

namespace Sys2Proof.Machine

/-! ### 4x4 matrices -/

/-- Four values: a row, a column, or a 2x2 block in raster order. -/
structure Quad (α : Type) where
  x0 : α
  x1 : α
  x2 : α
  x3 : α
  deriving DecidableEq, Repr

/-- A 4x4 matrix, row by row (44 R270). -/
abbrev Mat := Quad (Quad Int)

/-- A checked computation on each of four values. -/
def Quad.mapE {α β : Type} (f : α → Except Err β) (q : Quad α) : Except Err (Quad β) := do
  let y0 ← f q.x0
  let y1 ← f q.x1
  let y2 ← f q.x2
  let y3 ← f q.x3
  return ⟨y0, y1, y2, y3⟩

/-- A checked computation on each pair of corresponding values. -/
def Quad.zipE {α β γ : Type} (f : α → β → Except Err γ) (p : Quad α) (q : Quad β) : Except Err (Quad γ) := do
  let y0 ← f p.x0 q.x0
  let y1 ← f p.x1 q.x1
  let y2 ← f p.x2 q.x2
  let y3 ← f p.x3 q.x3
  return ⟨y0, y1, y2, y3⟩

/-- The four values as a list. -/
def Quad.toList {α : Type} (q : Quad α) : List α := [q.x0, q.x1, q.x2, q.x3]

/-- Rows become columns. -/
def Mat.transpose (m : Mat) : Mat :=
  ⟨⟨m.x0.x0, m.x1.x0, m.x2.x0, m.x3.x0⟩, ⟨m.x0.x1, m.x1.x1, m.x2.x1, m.x3.x1⟩,
   ⟨m.x0.x2, m.x1.x2, m.x2.x2, m.x3.x2⟩, ⟨m.x0.x3, m.x1.x3, m.x2.x3, m.x3.x3⟩⟩

/-- The matrix whose element (i, j) is f (4i + j) (44 R270). -/
def Mat.ofFn (f : Nat → Int) : Mat :=
  ⟨⟨f 0, f 1, f 2, f 3⟩, ⟨f 4, f 5, f 6, f 7⟩, ⟨f 8, f 9, f 10, f 11⟩, ⟨f 12, f 13, f 14, f 15⟩⟩

/-- A buffer read as a matrix (44 R270). -/
def Mat.ofVec (v : Vec16) : Mat := Mat.ofFn (vecInt v)

/-- The elements in raster order. -/
def Mat.toList (m : Mat) : List Int := m.x0.toList ++ m.x1.toList ++ m.x2.toList ++ m.x3.toList

/-- A matrix written back to a buffer (44 R270). -/
def Mat.toVec (m : Mat) : Vec16 := vec16 (fun k => toWord (m.toList.getD k 0))

/-- Element (0, 0). -/
def Mat.dc (m : Mat) : Int := m.x0.x0

/-- Element (0, 0) replaced. -/
def Mat.setDc (m : Mat) (v : Int) : Mat := { m with x0 := { m.x0 with x0 := v } }

/-- A checked function of every element. -/
def Mat.mapE (f : Int → Except Err Int) (m : Mat) : Except Err Mat := Quad.mapE (Quad.mapE f) m

/-- A checked row function applied to each row, then to each column of the result. -/
def Mat.rowsThenColumns (f : Quad Int → Except Err (Quad Int)) (m : Mat) : Except Err Mat := do
  let r ← Quad.mapE f m
  let c ← Quad.mapE f (Mat.transpose r)
  return Mat.transpose c

/-- How many elements are not 0. -/
def countNonzero (l : List Int) : Nat := (l.filter (fun v => decide (v ≠ 0))).length

/-! ### The core transforms -/

/-- The forward butterfly (44 R271), each named intermediate in range (44 R270). -/
def butterfly (x : Quad Int) : Except Err (Quad Int) := do
  let s0 ← chk (x.x0 + x.x3)
  let s1 ← chk (x.x1 + x.x2)
  let d0 ← chk (x.x0 - x.x3)
  let d1 ← chk (x.x1 - x.x2)
  let y0 ← chk (s0 + s1)
  let p0 ← chk (2 * d0)
  let y1 ← chk (p0 + d1)
  let y2 ← chk (s0 - s1)
  let p1 ← chk (2 * d1)
  let y3 ← chk (d0 - p1)
  return ⟨y0, y1, y2, y3⟩

/-- CoreFwd(X) (44 R271). -/
def coreFwd (x : Mat) : Except Err Mat := x.rowsThenColumns butterfly

/-- The inverse butterfly (44 R275). -/
def invButterfly (d : Quad Int) : Except Err (Quad Int) := do
  let e0 ← chk (d.x0 + d.x2)
  let e1 ← chk (d.x0 - d.x2)
  let h1 ← chk (sar d.x1 1)
  let e2 ← chk (h1 - d.x3)
  let h3 ← chk (sar d.x3 1)
  let e3 ← chk (d.x1 + h3)
  let y0 ← chk (e0 + e3)
  let y1 ← chk (e1 + e2)
  let y2 ← chk (e1 - e2)
  let y3 ← chk (e0 - e3)
  return ⟨y0, y1, y2, y3⟩

/-- r[i][j] <- (h[i][j] + 32) >> 6 (44 R275). -/
def roundSample (h : Int) : Except Err Int := do
  let t ← chk (h + 32)
  chk (sar t 6)

/-- CoreInv(D) (44 R275). -/
def coreInv (d : Mat) : Except Err Mat := do
  let h ← d.rowsThenColumns invButterfly
  h.mapE roundSample

/-! ### Quantisation -/

/-- MF[r][class] (44 R272): classes 0, 1, 2. -/
def mf : Nat → Nat × Nat × Nat
  | 0 => (13107, 5243, 8066)
  | 1 => (11916, 4660, 7490)
  | 2 => (10082, 4194, 6554)
  | 3 => (9362, 3647, 5825)
  | 4 => (8192, 3355, 5243)
  | _ => (7282, 2893, 4559)

/-- V[r][class] (44 R272): classes 0, 1, 2. -/
def normAdjust : Nat → Nat × Nat × Nat
  | 0 => (10, 16, 13)
  | 1 => (11, 18, 14)
  | 2 => (13, 20, 16)
  | 3 => (14, 23, 18)
  | 4 => (16, 25, 20)
  | _ => (18, 29, 23)

/-- A class table spread over the positions (44 R272): class 0 where i and j are both even, 1 where both are odd,
2 elsewhere. -/
def classMat (t : Nat × Nat × Nat) : Mat :=
  let even : Quad Int := ⟨t.1, t.2.2, t.1, t.2.2⟩
  let odd : Quad Int := ⟨t.2.2, t.2.1, t.2.2, t.2.1⟩
  ⟨even, odd, even, odd⟩

/-- qbits = 15 + (QP div 6) (44 R273). -/
def qbits (qp : Nat) : Nat := 15 + qp / 6

/-- QUANT_F(qbits, intra) (44 R273; 00 R10). -/
def quantF (qb : Nat) (intra : Bool) : Int := if intra then ((2 ^ qb / 3 : Nat) : Int) else ((2 ^ qb / 6 : Nat) : Int)

/-- Sign(w) * ((Abs(w) * m + f) >> n), each intermediate in range (44 R273, R277). -/
def quantOne (f : Int) (n : Nat) (m w : Int) : Except Err Int := do
  let p ← chk (absInt w * m)
  let q ← chk (p + f)
  let z ← chk (sar q n)
  chk (signInt w * z)

/-- Quant(W, QP, intra) (44 R273). -/
def quant (w : Mat) (qp : Nat) (intra : Bool) : Except Err Mat :=
  Quad.zipE (Quad.zipE (quantOne (quantF (qbits qp) intra) (qbits qp))) (classMat (mf (qp % 6))) w

/-- One element of Dequant (44 R274). -/
def dequantOne (n : Nat) (v z : Int) : Except Err Int := do
  let p ← chk (z * v)
  chk (shl p n)

/-- Dequant(Z, QP) (44 R274). -/
def dequant (z : Mat) (qp : Nat) : Except Err Mat :=
  Quad.zipE (Quad.zipE (dequantOne (qp / 6))) (classMat (normAdjust (qp % 6))) z

/-- One element of DcQuant (44 R277). -/
def dcQuantOne (qp : Nat) (intra : Bool) (y : Int) : Except Err Int :=
  quantOne (2 * quantF (qbits qp) intra) (qbits qp + 1) (mf (qp % 6)).1 y

/-! ### The DC transforms -/

/-- A row times H (44 R276), each entry one four-term sum (log 8). -/
def hadamard (x : Quad Int) : Except Err (Quad Int) := do
  let y0 ← chk (x.x0 + x.x1 + x.x2 + x.x3)
  let y1 ← chk (x.x0 + x.x1 - x.x2 - x.x3)
  let y2 ← chk (x.x0 - x.x1 - x.x2 + x.x3)
  let y3 ← chk (x.x0 - x.x1 + x.x2 - x.x3)
  return ⟨y0, y1, y2, y3⟩

/-- H X H (44 R276). -/
def hadamard4 (x : Mat) : Except Err Mat := x.rowsThenColumns hadamard

/-- DcFwd4(W) = (H W H) >> 1 (44 R276; 92 D21: floor). -/
def dcFwd4 (w : Mat) : Except Err Mat := do
  let y ← hadamard4 w
  y.mapE (fun v => chk (sar v 1))

/-- DcQuant of a 4x4 matrix (44 R277). -/
def dcQuant4 (y : Mat) (qp : Nat) (intra : Bool) : Except Err Mat := y.mapE (dcQuantOne qp intra)

/-- LS = 16 * V[QP mod 6][0] (44 R278, R280). -/
def dcScale (qp : Nat) : Int := 16 * ((normAdjust (qp % 6)).1 : Int)

/-- One element of DcInv4 (44 R278). -/
def dcInvOne4 (qp : Nat) (f : Int) : Except Err Int := do
  let p ← chk (f * dcScale qp)
  if 36 ≤ qp then chk (shl p (qp / 6 - 6))
  else
    let q ← chk (p + shl 1 (5 - qp / 6))
    chk (sar q (6 - qp / 6))

/-- DcInv4(C, QP) (44 R278). -/
def dcInv4 (c : Mat) (qp : Nat) : Except Err Mat := do
  let f ← hadamard4 c
  f.mapE (dcInvOne4 qp)

/-- H2 X H2 of a 2x2 block (44 R279), each entry one four-term sum (log 8). -/
def hadamard2 (x : Quad Int) : Except Err (Quad Int) := do
  let y0 ← chk (x.x0 + x.x1 + x.x2 + x.x3)
  let y1 ← chk (x.x0 - x.x1 + x.x2 - x.x3)
  let y2 ← chk (x.x0 + x.x1 - x.x2 - x.x3)
  let y3 ← chk (x.x0 - x.x1 - x.x2 + x.x3)
  return ⟨y0, y1, y2, y3⟩

/-- DcFwd2(W) (44 R279). -/
def dcFwd2 (w : Quad Int) : Except Err (Quad Int) := hadamard2 w

/-- DcQuant of a 2x2 block (44 R277, R279). -/
def dcQuant2 (y : Quad Int) (qp : Nat) (intra : Bool) : Except Err (Quad Int) := y.mapE (dcQuantOne qp intra)

/-- One element of DcInv2 (44 R280). -/
def dcInvOne2 (qp : Nat) (f : Int) : Except Err Int := do
  let p ← chk (f * dcScale qp)
  let q ← chk (shl p (qp / 6))
  chk (sar q 5)

/-- DcInv2(C, QPc) (44 R280). -/
def dcInv2 (c : Quad Int) (qp : Nat) : Except Err (Quad Int) := do
  let f ← hadamard2 c
  f.mapE (dcInvOne2 qp)

/-! ### The chroma QP -/

/-- The entries of QPC for qPI = 30 to 51 (44 R281). -/
def qpcHigh : List Nat := [29, 30, 31, 32, 32, 33, 34, 34, 35, 35, 36, 36, 37, 37, 37, 38, 38, 38, 39, 39, 39, 39]

/-- QPC[qPI] (44 R281): qPI itself up to 29. -/
def qpcTable (q : Nat) : Nat := if q < 30 then q else qpcHigh.getD (q - 30) 0

/-- QPc of a QP under CHROMA_QP_OFFSET (44 R281). -/
def qpChroma (c : Config) (qp : Int) : Nat := qpcTable (clip3 0 51 (qp + c.chromaQpOffset)).toNat

/-! ### The commands -/

/-- The 2x2 block in DCB[0..3] (44 R270). -/
def dcb2 (v : Vec16) : Quad Int := ⟨vecInt v 0, vecInt v 1, vecInt v 2, vecInt v 3⟩

/-- DCB[0..3] replaced; DCB[4..15] kept (10 R33). -/
def setDcb2 (v : Vec16) (q : Quad Int) : Vec16 := fillVec v 4 (fun k => toWord (q.toList.getD k 0))

/-- ARG0 has no unnamed flag set, and with Q set ARG1 is a QP (44 R290 to R295). -/
def flagCheck (s : State) (named : List Nat) : Except Err Unit := do
  require (onlyFlags (s.getArg 0) named) .badOperand
  require (!s.argFlag 0 0 || isQp (s.argInt 1)) .badOperand

/-- The QP operand of a transform command. -/
def State.qpArg (s : State) : Nat := (s.argInt 1).toNat

/-- FWD4's computation (44 R290): the DC term, and the coefficients. -/
def fwd4Result (s : State) : Except Err (Int × Mat) := do
  let w ← coreFwd (Mat.ofVec s.tb)
  let w' := if s.argFlag 0 1 then w.setDc 0 else w
  let z ← if s.argFlag 0 0 then quant w' s.qpArg (s.argFlag 0 2) else .ok w'
  return (w.dc, z)

/-- FWD4 (44 R290). -/
def execFwd4 (s : State) : Host.Outcome State Fault Refusal :=
  .next (s.cleanCommand (do
    flagCheck s [0, 1, 2]
    let (dc, z) ← fwd4Result s
    return ({ s with cb := z.toVec }.setResInt 0 dc).setResInt 1 (countNonzero z.toList)))

/-- INV4's computation (44 R291); with DCI set CB[0] is not read (log 13). -/
def inv4Result (s : State) : Except Err Mat := do
  let c := if s.argFlag 0 1 then (Mat.ofVec s.cb).setDc 0 else Mat.ofVec s.cb
  let d ← if s.argFlag 0 0 then dequant c s.qpArg else .ok c
  coreInv (if s.argFlag 0 1 then d.setDc (s.argInt 2) else d)

/-- INV4 (44 R291). -/
def execInv4 (s : State) : Host.Outcome State Fault Refusal :=
  .next (s.cleanCommand (do
    flagCheck s [0, 1]
    let r ← inv4Result s
    return { s with tb := r.toVec }))

/-- FWD_DC4's computation (44 R292). -/
def fwdDc4Result (s : State) : Except Err Mat := do
  let y ← dcFwd4 (Mat.ofVec s.dcb)
  if s.argFlag 0 0 then dcQuant4 y s.qpArg (s.argFlag 0 2) else .ok y

/-- FWD_DC4 (44 R292). -/
def execFwdDc4 (s : State) : Host.Outcome State Fault Refusal :=
  .next (s.cleanCommand (do
    flagCheck s [0, 2]
    let z ← fwdDc4Result s
    return { s with dcb := z.toVec }.setResInt 1 (countNonzero z.toList)))

/-- INV_DC4's computation (44 R293). -/
def invDc4Result (s : State) : Except Err Mat :=
  if s.argFlag 0 0 then dcInv4 (Mat.ofVec s.dcb) s.qpArg else hadamard4 (Mat.ofVec s.dcb)

/-- INV_DC4 (44 R293). -/
def execInvDc4 (s : State) : Host.Outcome State Fault Refusal :=
  .next (s.cleanCommand (do
    flagCheck s [0]
    let r ← invDc4Result s
    return { s with dcb := r.toVec }))

/-- FWD_DC2's computation (44 R294). -/
def fwdDc2Result (s : State) : Except Err (Quad Int) := do
  let y ← dcFwd2 (dcb2 s.dcb)
  if s.argFlag 0 0 then dcQuant2 y s.qpArg (s.argFlag 0 2) else .ok y

/-- FWD_DC2 (44 R294). -/
def execFwdDc2 (s : State) : Host.Outcome State Fault Refusal :=
  .next (s.cleanCommand (do
    flagCheck s [0, 2]
    let z ← fwdDc2Result s
    return { s with dcb := setDcb2 s.dcb z }.setResInt 1 (countNonzero z.toList)))

/-- INV_DC2's computation (44 R295). -/
def invDc2Result (s : State) : Except Err (Quad Int) :=
  if s.argFlag 0 0 then dcInv2 (dcb2 s.dcb) s.qpArg else hadamard2 (dcb2 s.dcb)

/-- INV_DC2 (44 R295). -/
def execInvDc2 (s : State) : Host.Outcome State Fault Refusal :=
  .next (s.cleanCommand (do
    flagCheck s [0]
    let r ← invDc2Result s
    return { s with dcb := setDcb2 s.dcb r }))

/-- QPC (44 R296). -/
def execQpc (s : State) : Host.Outcome State Fault Refusal :=
  .next (s.cleanCommand (do
    require (isQp (s.argInt 0)) .badOperand
    return s.setResInt 0 (qpChroma s.cfg (s.argInt 0))))

end Sys2Proof.Machine
end

