-- ==== Sys2Proof/Machine/Macroblock.lean ====
section
/-! DEFINITION. The geometry and derived values of the macroblock coordinator (45_macroblock.md section 1), and its
commands other than MB_ENCODE and MB_DECODE. -/

namespace Sys2Proof.Machine

/-! ### Block positions -/

/-- bx of luma block b (45 R321). -/
def lumaBx (b : Nat) : Nat := [0, 1, 0, 1, 2, 3, 2, 3, 0, 1, 0, 1, 2, 3, 2, 3].getD b 0

/-- by of luma block b (45 R321). -/
def lumaBy (b : Nat) : Nat := [0, 0, 1, 1, 0, 0, 1, 1, 2, 2, 3, 3, 2, 2, 3, 3].getD b 0

/-- BlkAt(x, y), the luma block at column x, row y (45 R321). -/
def blkAt (x y : Nat) : Nat := [0, 1, 4, 5, 2, 3, 6, 7, 8, 9, 12, 13, 10, 11, 14, 15].getD (4 * y + x) 0

/-- bx of chroma block b (45 R322). -/
def chromaBx (b : Nat) : Nat := b % 2

/-- by of chroma block b (45 R322). -/
def chromaBy (b : Nat) : Nat := b / 2

/-- A block's component: luma, or chroma component c (45 R373: 0 luma, 1 Cb, 2 Cr). -/
inductive Comp where
  | luma
  | cb
  | cr
  deriving DecidableEq, Repr

/-- The plane of a component (45 R320). -/
def Comp.plane : Comp → Plane
  | .luma => .y
  | .cb => .cb
  | .cr => .cr

/-- bx of block b of a component (45 R321, R322). -/
def Comp.bx : Comp → Nat → Nat
  | .luma, b => lumaBx b
  | _, b => chromaBx b

/-- by of block b of a component (45 R321, R322). -/
def Comp.by : Comp → Nat → Nat
  | .luma, b => lumaBy b
  | _, b => chromaBy b

/-! ### Neighbours -/

/-- The candidate neighbours: A left, B above, C above-right, D above-left (45 R323). -/
inductive Nbr where
  | a
  | b
  | c
  | d
  deriving DecidableEq, Repr

/-- Nb(m, X) (45 R323): the candidate's index when its position lies in the grid. -/
def State.nbr (s : State) (m : Nat) : Nbr → Option Nat
  | .a => if 0 < s.mbx m then some (m - 1) else none
  | .b => if 0 < s.mby m then some (m - s.gridW.toNat) else none
  | .c => if s.mbx m + 1 < s.gridW.toNat ∧ 0 < s.mby m then some (m - s.gridW.toNat + 1) else none
  | .d => if 0 < s.mbx m ∧ 0 < s.mby m then some (m - s.gridW.toNat - 1) else none

/-- The record of neighbour X of m when it is available to a record of slice `slice` (45 R325). -/
def State.availNbr (s : State) (m : Nat) (slice : Word) (x : Nbr) : Option MbRecord :=
  match s.nbr m x with
  | none => none
  | some n => if (s.record n).slice = slice then some (s.record n) else none

/-- A neighbour block: one of the same macroblock, or one of the left or above macroblock (45 R324). -/
inductive BlkRef where
  | own (b : Nat)
  | other (x : Nbr) (b : Nat)
  deriving DecidableEq, Repr

/-- The left block of block b (45 R324). -/
def leftBlk : Comp → Nat → BlkRef
  | .luma, b =>
    if 0 < lumaBx b then .own (blkAt (lumaBx b - 1) (lumaBy b)) else .other .a (blkAt 3 (lumaBy b))
  | _, b => if 0 < chromaBx b then .own (2 * chromaBy b + (chromaBx b - 1)) else .other .a (2 * chromaBy b + 1)

/-- The above block of block b (45 R324). -/
def aboveBlk : Comp → Nat → BlkRef
  | .luma, b =>
    if 0 < lumaBy b then .own (blkAt (lumaBx b) (lumaBy b - 1)) else .other .b (blkAt (lumaBx b) 3)
  | _, b => if 0 < chromaBy b then .own (chromaBx b) else .other .b (2 + chromaBx b)

/-- TotalCoeff of a block of a record: TCY or TCC (45 R326). -/
def MbRecord.tc (r : MbRecord) : Comp → Nat → Int
  | .luma, b => vecInt r.tcy b
  | .cb, b => vecInt (r.tcc.getD 0 (Vector.replicate 4 0)) b
  | .cr, b => vecInt (r.tcc.getD 1 (Vector.replicate 4 0)) b

/-- The TotalCoeff of a neighbour block of macroblock m, whose record is now `r`, when the block is available
(45 R325, R326). -/
def State.blkTc (s : State) (r : MbRecord) (m : Nat) (c : Comp) : BlkRef → Option Int
  | .own b => some (r.tc c b)
  | .other x b => (s.availNbr m r.slice x).map (fun q => q.tc c b)

/-- NC(m, comp, b), with `r` the record of m as it now is (45 R326). -/
def State.nc (s : State) (r : MbRecord) (m : Nat) (c : Comp) (b : Nat) : Int :=
  match s.blkTc r m c (leftBlk c b), s.blkTc r m c (aboveBlk c b) with
  | some nA, some nB => sar (nA + nB + 1) 1
  | some nA, none => nA
  | none, some nB => nB
  | none, none => 0

/-! ### Order, QP, type, motion vector -/

/-- Every in-grid neighbour of m has been coded (45 R327, R373, R374). -/
def State.nbrsDone (s : State) (m : Nat) : Bool :=
  [Nbr.a, .b, .c, .d].all (fun x => match s.nbr m x with
    | none => true
    | some n => (s.record n).done)

/-- OrderCheck(m) (45 R327). -/
def orderCheck (s : State) (m : Nat) : Except Err Unit := do
  require (!(s.record m).done) .orderViolation
  require (s.nbrsDone m) .orderViolation
  require (m == 0 || (s.record (m - 1)).done) .orderViolation

/-- QpPred(m, sliceQP) for a record of slice `slice` (45 R328). -/
def State.qpPred (s : State) (m : Nat) (slice : Word) (sliceQp : Int) : Int :=
  if 0 < m ∧ (s.record (m - 1)).slice = slice then (s.record (m - 1)).qp.toInt else sliceQp

/-- mb_qp_delta as the encoder codes it, wrapped into [-26, 25] (45 R329). -/
def qpDelta (qp pred : Int) : Int :=
  let d := qp - pred
  if 25 < d then d - 52 else if d < -26 then d + 52 else d

/-- The slice types in scope: P (0) and I (2) (45 R334; 92 D24). -/
def sliceTypeOk (st : Int) : Bool := decide (st = 0 ∨ st = 2)

/-- SetType(st, intra, pm, cbp) (45 R335). -/
def setType (st intra pm cbp : Int) : Except Err Int := do
  require (sliceTypeOk st) .unsupported
  require (decide (intra = 0 ∨ intra = 1)) .badOperand
  if intra = 0 then
    require (decide (st = 0)) .badOperand
    return 0
  else
    require (within 0 3 pm && within 0 47 cbp) .tableMiss
    require (decide (cbp % 16 = 0 ∨ cbp % 16 = 15)) .tableMiss
    let t := 1 + pm + 4 * (cbp / 16) + (if cbp % 16 = 15 then 12 else 0)
    return if st = 0 then t + 5 else t

/-- The Intra_16x16 part of UnpackMbType, on the I-slice value (45 R336). -/
def unpackIntra (t : Int) : Except Err (Int × Int × Int) := do
  require (decide (t ≠ 0 ∧ t ≠ 25)) .unsupported
  require (decide (t ≤ 25)) .tableMiss
  let u := t - 1
  return (1, u % 4, (if 12 ≤ u then 15 else 0) + 16 * ((u / 4) % 3))

/-- UnpackMbType(st, t) (45 R336): (intra, pm, cbp), cbp -1 for the inter type. -/
def unpackMbType (st t : Int) : Except Err (Int × Int × Int) := do
  require (sliceTypeOk st) .unsupported
  require (decide (0 ≤ t)) .tableMiss
  if st = 0 then
    if t = 0 then return (0, 0, -1)
    else
      require (!within 1 4 t) .unsupported
      require (decide (t ≤ 30)) .tableMiss
      unpackIntra (t - 5)
  else unpackIntra t

/-- Part(m, X) (45 R340): available, the reference index, the motion vector. -/
structure MvPart where
  avail : Bool
  ref : Int
  x : Int
  y : Int
  deriving DecidableEq, Repr

/-- Part(m, X) for a record of slice `slice` (45 R340). -/
def State.mvPart (s : State) (m : Nat) (slice : Word) (x : Nbr) : MvPart :=
  match s.availNbr m slice x with
  | none => ⟨false, -1, 0, 0⟩
  | some q => if q.intra then ⟨true, -1, 0, 0⟩ else ⟨true, 0, q.mvx.toInt, q.mvy.toInt⟩

/-- The predictor from the three parts (45 R340): the one whose reference is 0 when there is exactly one, else the
median (log 15). -/
def mvSelect (a b c : MvPart) : Int × Int :=
  if a.ref = 0 ∧ b.ref ≠ 0 ∧ c.ref ≠ 0 then (a.x, a.y)
  else if a.ref ≠ 0 ∧ b.ref = 0 ∧ c.ref ≠ 0 then (b.x, b.y)
  else if a.ref ≠ 0 ∧ b.ref ≠ 0 ∧ c.ref = 0 then (c.x, c.y)
  else (medianInt a.x b.x c.x, medianInt a.y b.y c.y)

/-- Mvp(m) for a record of slice `slice` (45 R340). -/
def State.mvp (s : State) (m : Nat) (slice : Word) : Int × Int :=
  let a := s.mvPart m slice .a
  let b := s.mvPart m slice .b
  let c0 := s.mvPart m slice .c
  let c := if c0.avail then c0 else s.mvPart m slice .d
  if !b.avail && !c.avail && a.avail then mvSelect a a a else mvSelect a b c

/-! ### The commands -/

/-- GRID_W <- W, GRID_H <- H, GRID_VALID <- 1, and a fresh record for each macroblock of the grid (45 R330). -/
def State.initGrid (s : State) : State :=
  let n := (s.getArg 0).toNat * (s.getArg 1).toNat
  { s with
    gridW := s.getArg 0
    gridH := s.getArg 1
    gridValid := true
    mbs := List.replicate (min n s.mbs.length) MbRecord.fresh ++ s.mbs.drop n }

/-- MB_INIT (45 R330). -/
def execMbInit (s : State) : Host.Outcome State Fault Refusal :=
  .next (s.cleanCommand (do
    require (within 1 s.cfg.maxMbw (s.argInt 0) && within 1 s.cfg.maxMbh (s.argInt 1)) .badOperand
    return s.initGrid))

/-- MB_SETTYPE (45 R371). -/
def execMbSettype (s : State) : Host.Outcome State Fault Refusal :=
  .next (s.cleanCommand (do
    let t ← setType (s.argInt 0) (s.argInt 1) (s.argInt 2) (s.argInt 3)
    return s.setResInt 0 t))

/-- MB_UNPACKTYPE (45 R372). -/
def execMbUnpacktype (s : State) : Host.Outcome State Fault Refusal :=
  .next (s.cleanCommand (do
    let (i, p, c) ← unpackMbType (s.argInt 0) (s.argInt 1)
    return s.setResList 0 [i, p, c]))

/-- The macroblock index operand of a grid command: NoGrid first, then the range of m (60 R405; 45 R373 to R376). -/
def gridIndex (s : State) : Except Err Nat := do
  require s.gridValid .noGrid
  require (decide (0 ≤ s.argInt 0 ∧ s.argInt 0 < s.gridW.toNat * s.gridH.toNat)) .badOperand
  return (s.argInt 0).toNat

/-- The component operand of MB_NC (45 R373). -/
def compOf (v : Int) : Except Err Comp :=
  if v = 0 then .ok .luma else if v = 1 then .ok .cb else if v = 2 then .ok .cr else .error .badOperand

/-- The highest block index of a component: 15 luma, 3 chroma (45 R373). -/
def Comp.lastBlk : Comp → Nat
  | .luma => 15
  | _ => 3

/-- MB_NC (45 R373). -/
def execMbNc (s : State) : Host.Outcome State Fault Refusal :=
  .next (s.cleanCommand (do
    let m ← gridIndex s
    let c ← compOf (s.argInt 1)
    require (within 0 c.lastBlk (s.argInt 2)) .badOperand
    require (s.nbrsDone m) .orderViolation
    return s.setResInt 0 (s.nc (s.record m) m c (s.argInt 2).toNat)))

/-- MB_MVP (45 R374). -/
def execMbMvp (s : State) : Host.Outcome State Fault Refusal :=
  .next (s.cleanCommand (do
    let m ← gridIndex s
    require (s.nbrsDone m) .orderViolation
    let (x, y) := s.mvp m (s.record m).slice
    return s.setResList 0 [x, y]))

end Sys2Proof.Machine
end

