-- ==== Sys2Proof/Machine/MbLayer.lean ====
section
/-! DEFINITION. What MB_ENCODE and MB_DECODE share: the block lists of the residual (30 R113), access to a record's
blocks (10 R37), the results (45 R375, R376) and the write-sets (60 R411). -/

namespace Sys2Proof.Machine

/-- A checked computation on each element of a list, in order. -/
def mapErr {α β : Type} (f : α → Except Err β) : List α → Except Err (List β)
  | [] => .ok []
  | x :: xs => do
    let y ← f x
    let ys ← mapErr f xs
    return y :: ys

/-- A zero 4x4 block. -/
def zero16 : Vec16 := Vector.replicate 16 0

/-- A zero 2x2 block. -/
def zero4 : Vec4 := Vector.replicate 4 0

/-- Coefficient block b of a component: COEFY[b], COEFC[0][b] or COEFC[1][b] (10 R37). -/
def MbRecord.coef (r : MbRecord) : Comp → Nat → Vec16
  | .luma, b => r.coefY.getD b zero16
  | .cb, b => (r.coefC.getD 0 (Vector.replicate 4 zero16)).getD b zero16
  | .cr, b => (r.coefC.getD 1 (Vector.replicate 4 zero16)).getD b zero16

/-- Replace coefficient block b of a component. -/
def MbRecord.setCoef (r : MbRecord) (c : Comp) (b : Nat) (v : Vec16) : MbRecord :=
  match c with
  | .luma => { r with coefY := r.coefY.setIfInBounds b v }
  | .cb => { r with coefC := r.coefC.setIfInBounds 0 ((r.coefC.getD 0 (Vector.replicate 4 zero16)).setIfInBounds b v) }
  | .cr => { r with coefC := r.coefC.setIfInBounds 1 ((r.coefC.getD 1 (Vector.replicate 4 zero16)).setIfInBounds b v) }

/-- Set the TotalCoeff of block b of a component: TCY[b] or TCC[c][b] (10 R37). -/
def MbRecord.setTc (r : MbRecord) (c : Comp) (b n : Nat) : MbRecord :=
  match c with
  | .luma => { r with tcy := r.tcy.setIfInBounds b (toWord n) }
  | .cb => { r with tcc := r.tcc.setIfInBounds 0 ((r.tcc.getD 0 zero4).setIfInBounds b (toWord n)) }
  | .cr => { r with tcc := r.tcc.setIfInBounds 1 ((r.tcc.getD 1 zero4).setIfInBounds b (toWord n)) }

/-- The chroma components' index c (10 R37: 0 Cb, 1 Cr). -/
def Comp.chroma : Comp → Nat
  | .cr => 1
  | _ => 0

/-- DCC[c] (10 R37). -/
def MbRecord.dcc (r : MbRecord) (c : Comp) : Vec4 := r.dcC.getD c.chroma zero4

/-- DCC[c] replaced. -/
def MbRecord.setDcc (r : MbRecord) (c : Comp) (v : Vec4) : MbRecord := { r with dcC := r.dcC.setIfInBounds c.chroma v }

/-- The luma blocks whose coded_block_pattern bit is 1, in coding order (30 R113; 45 R352). -/
def codedLuma (cl : Nat) : List (Comp × Nat) :=
  ((List.range 16).filter (fun b => cl.testBit (b / 4))).map (fun b => (Comp.luma, b))

/-- The chroma AC blocks, coded when CodedBlockPatternChroma is 2 (30 R113; 45 R352). -/
def codedChromaAc (cc : Nat) : List (Comp × Nat) :=
  if cc = 2 then (List.range 4).map (fun b => (Comp.cb, b)) ++ (List.range 4).map (fun b => (Comp.cr, b)) else []

/-- The chroma DC blocks, coded when CodedBlockPatternChroma is 1 or 2 (30 R113; 45 R352). -/
def codedChromaDc (cc : Nat) : List Comp := if 1 ≤ cc then [Comp.cb, Comp.cr] else []

/-- dcSkip of a block (43 R231; 45 R352): 1 for chroma AC, and for the luma blocks of an Intra_16x16 macroblock. -/
def blockSkip (intra : Bool) : Comp → Nat
  | .luma => if intra then 1 else 0
  | _ => 1

/-- 1 for true, 0 for false. -/
def boolInt (b : Bool) : Int := if b then 1 else 0

/-- RES0 .. RES10 of MB_ENCODE and MB_DECODE (45 R375). -/
def mbResults (bits : Nat) (r : MbRecord) : List Int :=
  [bits, r.mbType.toInt, r.cbp.toInt, r.qp.toInt, boolInt r.intra, r.pm.toInt, r.cpm.toInt, r.mvx.toInt, r.mvy.toInt,
    r.mvdx.toInt, r.mvdy.toInt]

/-- The write-set of MB_ENCODE (`pout` false) and MB_DECODE (`pout` true) on macroblock m (60 R411): MB_ENCODE writes
the stream, MB_DECODE the output views. -/
def mbWrites (m : Nat) (pout : Bool) : WriteSet := ⟨11, !pout, 0, some m, pout⟩

end Sys2Proof.Machine
end

