-- ==== Sys2Proof/Machine/MbEncode.lean ====
section
/-! DEFINITION. MB_ENCODE (45 R375): the check phase, transform and quantisation (45 R350), coded_block_pattern
(45 R345) and the writing of the macroblock_layer (45 R352; 30 R112, R113). -/

namespace Sys2Proof.Machine

/-- The operands of MB_ENCODE (45 R375). -/
structure EncodeArgs where
  m : Nat
  slice : Word
  st : Int
  qp : Int
  intra : Bool
  pm : Int
  cpm : Int
  mvx : Int
  mvy : Int
  sliceQp : Int
  deriving DecidableEq, Repr

/-- The check phase (45 R375; 60 R413), in its order. -/
def encodeCheck (s : State) : Except Err EncodeArgs := do
  let m ← gridIndex s
  require (sliceTypeOk (s.argInt 2)) .unsupported
  require (isQp (s.argInt 9) && isQp (s.argInt 3)) .badOperand
  require (decide (s.argInt 4 = 0 ∨ s.argInt 4 = 1)) .badOperand
  if s.argInt 4 = 1 then require (within 0 3 (s.argInt 5) && within 0 3 (s.argInt 6)) .badOperand
  else require (decide (s.argInt 2 = 0)) .badOperand
  orderCheck s m
  return { m := m, slice := s.getArg 1, st := s.argInt 2, qp := s.argInt 3, intra := decide (s.argInt 4 = 1),
           pm := s.argInt 5, cpm := s.argInt 6, mvx := s.argInt 7, mvy := s.argInt 8, sliceQp := s.argInt 9 }

/-- The record the coding phase starts from (45 R375, R338). -/
def encodeRecord (a : EncodeArgs) : MbRecord :=
  { MbRecord.fresh with
    slice := a.slice
    stype := toWord a.st
    intra := a.intra
    pm := if a.intra then toWord a.pm else 0
    cpm := if a.intra then toWord a.cpm else 0
    mvx := if a.intra then 0 else toWord a.mvx
    mvy := if a.intra then 0 else toWord a.mvy }

/-! ### Stage 1: transform and quantise (45 R350) -/

/-- The samples of block b of a component of macroblock m (45 R320 to R322). -/
def State.samples (s : State) (m : Nat) (c : Comp) (b : Nat) : Mat :=
  Mat.ofFn (fun k => (s.pinAt c.plane (s.viewRow c.plane m (4 * c.by b + k / 4))
    (s.viewCol c.plane m (4 * c.bx b + k % 4))).toInt)

/-- One block: its DC term, and its quantised coefficients with the DC term taken out when `extract` (45 R350). -/
def encodeBlock (x : Mat) (qp : Nat) (intra extract : Bool) : Except Err (Int × Vec16) := do
  let w ← coreFwd x
  let z ← quant (if extract then w.setDc 0 else w) qp intra
  return (w.dc, z.toVec)

/-- The luma DC matrix: element (by, bx) is the DC term of block BlkAt(bx, by) (45 R321). -/
def lumaDcMat (dcs : List Int) : Mat := Mat.ofFn (fun k => dcs.getD (blkAt (k % 4) (k / 4)) 0)

/-- Chroma component c of stage 1 (45 R350): DCC[c] and COEFC[c]. -/
def encodeChroma (s : State) (m : Nat) (c : Comp) (qpc : Nat) (intra : Bool) :
    Except Err (Vec4 × Vector Vec16 4) := do
  let blocks ← mapErr (fun b => encodeBlock (s.samples m c b) qpc intra true) (List.range 4)
  let dc := fun b => (blocks.map (·.1)).getD b 0
  let y ← dcFwd2 ⟨dc 0, dc 1, dc 2, dc 3⟩
  let z ← dcQuant2 y qpc intra
  return (vec4 (fun k => toWord (z.toList.getD k 0)), Vector.ofFn (fun b => (blocks.map (·.2)).getD b.val zero16))

/-- DCY: the luma DC block of an Intra_16x16 macroblock; an inter macroblock has none (45 R350). -/
def encodeLumaDc (dcs : List Int) (qp : Nat) (intra : Bool) : Except Err Vec16 :=
  if intra then do
    let y ← dcFwd4 (lumaDcMat dcs)
    let z ← dcQuant4 y qp true
    return z.toVec
  else .ok zero16

/-- Stage 1 (45 R350). -/
def encodeTransform (s : State) (a : EncodeArgs) (r : MbRecord) : Except Err MbRecord := do
  let qp := a.qp.toNat
  let qpc := qpChroma s.cfg a.qp
  let blocks ← mapErr (fun b => encodeBlock (s.samples a.m .luma b) qp a.intra a.intra) (List.range 16)
  let dcY ← encodeLumaDc (blocks.map (·.1)) qp a.intra
  let (dcb, coefb) ← encodeChroma s a.m .cb qpc a.intra
  let (dcr, coefr) ← encodeChroma s a.m .cr qpc a.intra
  return { r with
    coefY := Vector.ofFn (fun b => (blocks.map (·.2)).getD b.val zero16)
    dcY := dcY
    coefC := #v[coefb, coefr]
    dcC := #v[dcb, dcr] }

/-! ### Stage 2: coded_block_pattern and mb_type -/

/-- Some element of a block is not 0. -/
def someNonzero {n : Nat} (v : Vector Word n) : Bool := (vecInts v).any (fun x => decide (x ≠ 0))

/-- The luma part (45 R345). -/
def cbpLuma (r : MbRecord) : Nat :=
  if r.intra then
    if (List.range 16).any (fun b => someNonzero (r.coef .luma b)) then 15 else 0
  else
    (List.range 4).foldl
      (fun acc b8 => acc + if (List.range 4).any (fun i => someNonzero (r.coef .luma (4 * b8 + i))) then 2 ^ b8 else 0) 0

/-- The chroma part (45 R345). -/
def cbpChroma (r : MbRecord) : Nat :=
  if [Comp.cb, .cr].any (fun c => (List.range 4).any (fun b => someNonzero (r.coef c b))) then 2
  else if [Comp.cb, .cr].any (fun c => someNonzero (r.dcc c)) then 1
  else 0

/-- CodedBlockPattern(R) (45 R345). -/
def codedBlockPattern (r : MbRecord) : Nat := cbpLuma r + 16 * cbpChroma r

/-! ### Stage 3: write the macroblock_layer (45 R352) -/

/-- The writes of a list of AC or luma blocks, and the record with their TotalCoeff; each block's count is set before
the next block's nC is computed (45 R352). -/
def blockItems (s : State) (m : Nat) : List (Comp × Nat) → MbRecord → List Item × MbRecord
  | [], r => ([], r)
  | (c, b) :: rest, r =>
    let skip := blockSkip r.intra c
    let cs := scanList (r.coef c b) skip
    let tail := blockItems s m rest (r.setTc c b (totalCoeff cs))
    (cavlcItems cs (16 - skip) (s.nc r m c b) ++ tail.1, tail.2)

/-- The writes of the luma DC block (45 R352): an Intra_16x16 macroblock's only. -/
def lumaDcItems (s : State) (m : Nat) (r : MbRecord) : List Item :=
  if r.intra then cavlcItems (scanList r.dcY 0) 16 (s.nc r m .luma 0) else []

/-- The writes of residual() (30 R113), and the record with its counts. -/
def residualItems (s : State) (m cl cc : Nat) (r : MbRecord) : List Item × MbRecord :=
  let luma := blockItems s m (codedLuma cl) r
  let dcs := (codedChromaDc cc).flatMap (fun c => cavlcItems (rasterList (r.dcc c)) 4 (-1))
  let chroma := blockItems s m (codedChromaAc cc) luma.2
  (lumaDcItems s m r ++ luma.1 ++ dcs ++ chroma.1, chroma.2)

/-- The writes after mb_type and before mb_qp_delta, and the record with its motion vector difference (45 R352). -/
def predictionItems (s : State) (a : EncodeArgs) (r : MbRecord) : List Item × MbRecord :=
  if a.intra then ([ueCodeword r.cpm.toNat], r)
  else
    let p := s.mvp a.m a.slice
    match chk (a.mvx - p.1), chk (a.mvy - p.2) with
    | .ok dx, .ok dy =>
      ([seCodeword dx, seCodeword dy, cbpCodeword false r.cbp.toInt], { r with mvdx := toWord dx, mvdy := toWord dy })
    | _, _ => ([.error .arithOverflow], r)

/-- Stage 3 (45 R352): the writes of the macroblock_layer (30 R112) and the record they leave. -/
def layerItems (s : State) (a : EncodeArgs) (r : MbRecord) : List Item × MbRecord :=
  let qpp := s.qpPred a.m a.slice a.sliceQp
  let head := predictionItems s a r
  let cbp := r.cbp.toNat
  if a.intra || cbp ≠ 0 then
    let res := residualItems s a.m (cbp % 16) (cbp / 16) { head.2 with qp := toWord a.qp }
    (ueCodeword r.mbType.toNat :: head.1 ++ [seCodeword (qpDelta a.qp qpp)] ++ res.1, res.2)
  else (ueCodeword r.mbType.toNat :: head.1, { head.2 with qp := toWord qpp })

/-- The coding phase (45 R375, R339). -/
def encodeBody (s : State) (a : EncodeArgs) : Except Err State := do
  let r1 ← encodeTransform s a (encodeRecord a)
  let r2 := { r1 with cbp := toWord (codedBlockPattern r1) }
  let t ← setType a.st (boolInt a.intra) a.pm (codedBlockPattern r1)
  let (items, r3) := layerItems s a { r2 with mbType := toWord t }
  let st ← s.stream.writeItems items
  let r := { r3 with done := true }
  return ((s.setStream st).setRecord a.m r).setResList 0 (mbResults (st.pos - s.stream.pos) r)

/-- MB_ENCODE (45 R375). -/
def execMbEncode (s : State) : Host.Outcome State Fault Refusal :=
  .next (s.mbCommand (fun a => mbWrites a.m false) (encodeCheck s) (encodeBody s))

end Sys2Proof.Machine
end

