-- ==== Sys2Proof/Machine/MbDecode.lean ====
section
/-! DEFINITION. MB_DECODE (45 R376): the check phase, the parsing of the macroblock_layer (45 R360), the
reconstruction (45 R361) and the output (45 R362). -/

namespace Sys2Proof.Machine

/-- The operands of MB_DECODE (45 R376). -/
structure DecodeArgs where
  m : Nat
  slice : Word
  st : Int
  sliceQp : Int
  deriving DecidableEq, Repr

/-- The check phase (45 R376), in its order. -/
def decodeCheck (s : State) : Except Err DecodeArgs := do
  let m ← gridIndex s
  require (sliceTypeOk (s.argInt 2)) .unsupported
  require (isQp (s.argInt 9)) .badOperand
  orderCheck s m
  return { m := m, slice := s.getArg 1, st := s.argInt 2, sliceQp := s.argInt 9 }

/-- The record the coding phase starts from (45 R376, R338). -/
def decodeRecord (a : DecodeArgs) : MbRecord := { MbRecord.fresh with slice := a.slice, stype := toWord a.st }

/-! ### Stage 1: parse the macroblock_layer (45 R360) -/

/-- A list of AC or luma blocks, each with the nC of the record as the blocks before it left it (45 R360). -/
def decodeBlocks (s : State) (m : Nat) : List (Comp × Nat) → MbRecord → Stream → Except Err (MbRecord × Stream)
  | [], r, st => .ok (r, st)
  | (c, b) :: rest, r, st => do
    let skip := blockSkip r.intra c
    let (d, st) ← cavlcDecode (16 - skip) (s.nc r m c b) st
    decodeBlocks s m rest ((r.setCoef c b (unscan d.coeffs skip)).setTc c b d.tc) st

/-- The luma DC block of an Intra_16x16 macroblock (45 R360). -/
def decodeLumaDc (s : State) (m : Nat) (r : MbRecord) (st : Stream) : Except Err (MbRecord × Stream) :=
  if r.intra then do
    let (d, st) ← cavlcDecode 16 (s.nc r m .luma 0) st
    return ({ r with dcY := unscan d.coeffs 0 }, st)
  else .ok (r, st)

/-- The chroma DC blocks (45 R360). -/
def decodeChromaDc : List Comp → MbRecord → Stream → Except Err (MbRecord × Stream)
  | [], r, st => .ok (r, st)
  | c :: rest, r, st => do
    let (d, st) ← cavlcDecode 4 (-1) st
    decodeChromaDc rest (r.setDcc c (vec4 (fun k => toWord (d.coeffs.getD k 0)))) st

/-- residual() (30 R113; 45 R360). -/
def decodeMbResidual (s : State) (m cl cc : Nat) (r : MbRecord) (st : Stream) : Except Err (MbRecord × Stream) := do
  let (r, st) ← decodeLumaDc s m r st
  let (r, st) ← decodeBlocks s m (codedLuma cl) r st
  let (r, st) ← decodeChromaDc (codedChromaDc cc) r st
  decodeBlocks s m (codedChromaAc cc) r st

/-- The elements between mb_type and mb_qp_delta (45 R360): the record with its prediction fields and CBP. -/
def decodePrediction (s : State) (a : DecodeArgs) (intra : Bool) (pm cbp : Int) (r : MbRecord) (st : Stream) :
    Except Err (MbRecord × Stream) :=
  if intra then do
    let (cpm, st) ← ueDecode st
    require (decide (cpm ≤ 3)) .tableMiss
    return ({ r with intra := true, pm := toWord pm, cpm := toWord cpm, cbp := toWord cbp }, st)
  else do
    let (dx, st) ← seDecode st
    let (dy, st) ← seDecode st
    let p := s.mvp a.m a.slice
    let x ← chk (p.1 + dx)
    let y ← chk (p.2 + dy)
    let (k, st) ← cbpDecode false st
    return ({ r with mvdx := toWord dx, mvdy := toWord dy, mvx := toWord x, mvy := toWord y, cbp := toWord k }, st)

/-- mb_qp_delta (45 R329, R360): CodecError outside [-26, 25]. -/
def decodeQp (pred : Int) (st : Stream) : Except Err (Int × Stream) := do
  let (d, st) ← seDecode st
  require (within (-26) 25 d) .codecError
  return ((pred + d + 52) % 52, st)

/-- Stage 1 (45 R360). -/
def decodeLayer (s : State) (a : DecodeArgs) (st : Stream) : Except Err (MbRecord × Stream) := do
  let (t, st) ← ueDecode st
  let (intra, pm, cbp) ← unpackMbType a.st t
  let (r, st) ← decodePrediction s a (decide (intra = 1)) pm cbp { decodeRecord a with mbType := toWord t } st
  let pred := s.qpPred a.m a.slice a.sliceQp
  if r.intra || r.cbp ≠ 0 then
    let (qp, st) ← decodeQp pred st
    decodeMbResidual s a.m (r.cbp.toNat % 16) (r.cbp.toNat / 16) { r with qp := toWord qp } st
  else return ({ r with qp := toWord pred }, st)

/-! ### Stage 2: reconstruct (45 R361) -/

/-- One block reconstructed, its DC coefficient replaced when `dc` is given (45 R361; 44 R282). -/
def reconBlock (z : Vec16) (qp : Nat) (dc : Option Int) : Except Err Mat := do
  let d ← dequant (Mat.ofVec z) qp
  coreInv (match dc with
    | some v => d.setDc v
    | none => d)

/-- The luma blocks (45 R361), by block index. -/
def reconLuma (r : MbRecord) (qp : Nat) : Except Err (List Mat) :=
  if r.intra then do
    let dcY ← dcInv4 (Mat.ofVec r.dcY) qp
    mapErr (fun b => reconBlock (r.coef .luma b) qp (some (dcY.toList.getD (4 * lumaBy b + lumaBx b) 0))) (List.range 16)
  else mapErr (fun b => reconBlock (r.coef .luma b) qp none) (List.range 16)

/-- The blocks of a chroma component (45 R361), by block index. -/
def reconChroma (r : MbRecord) (c : Comp) (qpc : Nat) : Except Err (List Mat) := do
  let dc ← dcInv2 ⟨vecInt (r.dcc c) 0, vecInt (r.dcc c) 1, vecInt (r.dcc c) 2, vecInt (r.dcc c) 3⟩ qpc
  mapErr (fun b => reconBlock (r.coef c b) qpc (some (dc.toList.getD b 0))) (List.range 4)

/-- The reconstruction of a macroblock (45 R361). -/
def reconstruct (cfg : Config) (r : MbRecord) : Except Err (List Mat × List Mat × List Mat) := do
  let y ← reconLuma r r.qp.toNat
  let qpc := qpChroma cfg r.qp.toInt
  let cb ← reconChroma r .cb qpc
  let cr ← reconChroma r .cr qpc
  return (y, cb, cr)

/-! ### Output (45 R362) -/

/-- The reconstructed value of sample (i, j) of a component's view: element (i mod 4, j mod 4) of the block at row
i div 4, column j div 4 (45 R321, R322, R361). -/
def viewSample (blocks : List Mat) (c : Comp) (i j : Nat) : Int :=
  let b := match c with
    | .luma => blkAt (j / 4) (i / 4)
    | _ => 2 * (i / 4) + j / 4
  (blocks.getD b (Mat.ofFn (fun _ => 0))).toList.getD (4 * (i % 4) + j % 4) 0

/-- Write a component's view of macroblock m (45 R362): every element of it, and no other. -/
def State.writeView (s : State) (m : Nat) (c : Comp) (blocks : List Mat) : State :=
  (square (viewSide c.plane)).foldl
    (fun t ij => t.writePout c.plane (t.viewRow c.plane m ij.1) (t.viewCol c.plane m ij.2)
      (toWord (viewSample blocks c ij.1 ij.2))) s

/-- The three output views of macroblock m (45 R362). -/
def State.writeViews (s : State) (m : Nat) (p : List Mat × List Mat × List Mat) : State :=
  ((s.writeView m .luma p.1).writeView m .cb p.2.1).writeView m .cr p.2.2

/-- The coding phase (45 R376, R339). -/
def decodeBody (s : State) (a : DecodeArgs) : Except Err State := do
  let (r0, st) ← decodeLayer s a s.stream
  let p ← reconstruct s.cfg r0
  let r := { r0 with done := true }
  return (((s.setStream st).writeViews a.m p).setRecord a.m r).setResList 0 (mbResults (st.pos - s.stream.pos) r)

/-- MB_DECODE (45 R376). -/
def execMbDecode (s : State) : Host.Outcome State Fault Refusal :=
  .next (s.mbCommand (fun a => mbWrites a.m true) (decodeCheck s) (decodeBody s))

end Sys2Proof.Machine
end

