-- ==== Sys2Proof/Machine/System.lean ====
section
/-! DEFINITION. The system commands (47_system.md). -/

namespace Sys2Proof.Machine

/-- NOP (47 R390): STATUS alone is written; ERRACC is kept. -/
def execNop (s : State) : Host.Outcome State Fault Refusal := .next s.succeed

/-- CLRERR (47 R391): ERRACC <- 0 first, and the end-of-command write leaves it 0 (60 R409). -/
def execClrerr (s : State) : Host.Outcome State Fault Refusal := .next { s with errAcc := 0 }.succeed

end Sys2Proof.Machine
end

