-- ==== Sys2Proof/Machine/Dispatch.lean ====
section
/-! DEFINITION. The dispatch of a decoded command to its meaning (30 R102, R106). -/

namespace Sys2Proof.Machine

open Sys2Proof

/-- Run the command `i` (30 R100). -/
def exec (i : Instr) (s : State) : Host.Outcome State Fault Refusal :=
  match i with
  | .nop => Sys2Proof.Machine.execNop s
  | .clrerr => Sys2Proof.Machine.execClrerr s
  | .bsBind => Sys2Proof.Machine.execBsBind s
  | .bsReset => Sys2Proof.Machine.execBsReset s
  | .bsRead1 => Sys2Proof.Machine.execBsRead1 s
  | .bsReadn => Sys2Proof.Machine.execBsReadn s
  | .bsWrite => Sys2Proof.Machine.execBsWrite s
  | .ueEnc => Sys2Proof.Machine.execUeEnc s
  | .ueDec => Sys2Proof.Machine.execUeDec s
  | .seEnc => Sys2Proof.Machine.execSeEnc s
  | .seDec => Sys2Proof.Machine.execSeDec s
  | .teEnc => Sys2Proof.Machine.execTeEnc s
  | .teDec => Sys2Proof.Machine.execTeDec s
  | .ctEnc => Sys2Proof.Machine.execCtEnc s
  | .ctDec => Sys2Proof.Machine.execCtDec s
  | .tz4Enc => Sys2Proof.Machine.execTz4Enc s
  | .tz4Dec => Sys2Proof.Machine.execTz4Dec s
  | .tzc2Enc => Sys2Proof.Machine.execTzc2Enc s
  | .tzc2Dec => Sys2Proof.Machine.execTzc2Dec s
  | .tzc4Enc => Sys2Proof.Machine.execTzc4Enc s
  | .tzc4Dec => Sys2Proof.Machine.execTzc4Dec s
  | .rbEnc => Sys2Proof.Machine.execRbEnc s
  | .rbDec => Sys2Proof.Machine.execRbDec s
  | .pfxEnc => Sys2Proof.Machine.execPfxEnc s
  | .pfxDec => Sys2Proof.Machine.execPfxDec s
  | .cbpEnc => Sys2Proof.Machine.execCbpEnc s
  | .cbpDec => Sys2Proof.Machine.execCbpDec s
  | .cavlcEnc4 => Sys2Proof.Machine.execCavlcEnc4 s
  | .cavlcDec4 => Sys2Proof.Machine.execCavlcDec4 s
  | .cavlcEnc2 => Sys2Proof.Machine.execCavlcEnc2 s
  | .cavlcDec2 => Sys2Proof.Machine.execCavlcDec2 s
  | .fwd4 => Sys2Proof.Machine.execFwd4 s
  | .inv4 => Sys2Proof.Machine.execInv4 s
  | .fwdDc4 => Sys2Proof.Machine.execFwdDc4 s
  | .invDc4 => Sys2Proof.Machine.execInvDc4 s
  | .fwdDc2 => Sys2Proof.Machine.execFwdDc2 s
  | .invDc2 => Sys2Proof.Machine.execInvDc2 s
  | .qpc => Sys2Proof.Machine.execQpc s
  | .mbInit => Sys2Proof.Machine.execMbInit s
  | .mbEncode => Sys2Proof.Machine.execMbEncode s
  | .mbDecode => Sys2Proof.Machine.execMbDecode s
  | .mbSettype => Sys2Proof.Machine.execMbSettype s
  | .mbUnpacktype => Sys2Proof.Machine.execMbUnpacktype s
  | .mbNc => Sys2Proof.Machine.execMbNc s
  | .mbMvp => Sys2Proof.Machine.execMbMvp s

end Sys2Proof.Machine
end

