-- ==== Sys2Proof/Machine/HostPort.lean ====
section
/-! DEFINITION. The host's accesses (20 section 3 to 5): reads, writes, the write to CMD that starts a command
(30 R100), and reset (70 R440, R442). -/

namespace Sys2Proof.Machine

/-! ### Reading -/

/-- A host element of sixteen or of four. -/
def elem {n : Nat} (v : Vector Word n) (k : Nat) : Option Word := v[k]?

/-- A one-bit register or field as the 32-bit element the host reads, with zeros in bits [31:1] (log 12, log 18). -/
def bitWord (b : Bool) : Word := if b then 1 else 0

/-- A field of a record as the host reads it, none for an index the field does not have (10 R37;
log 12). -/
def MbRecord.field (r : MbRecord) : MbField → Option Word
  | .done => some (bitWord r.done)
  | .slice => some r.slice
  | .stype => some r.stype
  | .qp => some r.qp
  | .intra => some (bitWord r.intra)
  | .pm => some r.pm
  | .cpm => some r.cpm
  | .mvx => some r.mvx
  | .mvy => some r.mvy
  | .mvdx => some r.mvdx
  | .mvdy => some r.mvdy
  | .cbp => some r.cbp
  | .mbType => some r.mbType
  | .tcy b => elem r.tcy b
  | .tcc c b => (r.tcc[c]?).bind (fun v => elem v b)
  | .coefY b k => (r.coefY[b]?).bind (fun v => elem v k)
  | .coefC c b k => (r.coefC[c]?).bind (fun v => (v[b]?).bind (fun u => elem u k))
  | .dcY k => elem r.dcY k
  | .dcC c k => (r.dcC[c]?).bind (fun v => elem v k)

/-- What a host read of a location returns, none where no such element exists (20 R79, R83; 10 R20). A BSBUF byte is
returned in the low 8 bits (log 7). GRID_VALID is one bit (10 R20), and the spec does not say what bits [31:1] of its
read hold: that they are zeros is the model's choice (log 18, DESIGN CHOICE). -/
def State.hostRead (s : State) : Loc → Option Word
  | .cmd => some s.cmd
  | .status => some s.status
  | .errAcc => some s.errAcc
  | .arg i => elem s.arg i
  | .res i => elem s.res i
  | .bsBase => some s.bsBase
  | .bsLen => some s.bsLen
  | .bsPos => some s.bsPos
  | .gridW => some s.gridW
  | .gridH => some s.gridH
  | .gridValid => some (bitWord s.gridValid)
  | .cb k => elem s.cb k
  | .tb k => elem s.tb k
  | .dcb k => elem s.dcb k
  | .bsbuf a => if a < s.cfg.bsBytes then some ((memRead s.bsbuf a).setWidth 32) else none
  | .pin p row col => if inPlane s.cfg p row col then some (s.pinAt p row col) else none
  | .pout p row col => if inPlane s.cfg p row col then some (s.poutAt p row col) else none
  | .mbs m f => if m < s.cfg.maxMbw * s.cfg.maxMbh then (s.record m).field f else none

/-! ### Writing -/

/-- The effect of a host write to a location that exists and starts no command: the stored value, or nothing for the
locations the host cannot write (20 R79). -/
def State.hostStore (s : State) (l : Loc) (v : Word) : State :=
  match l with
  | .cmd => { s with cmd := v }
  | .arg i => { s with arg := s.arg.setIfInBounds i v }
  | .cb k => { s with cb := s.cb.setIfInBounds k v }
  | .tb k => { s with tb := s.tb.setIfInBounds k v }
  | .dcb k => { s with dcb := s.dcb.setIfInBounds k v }
  | .bsbuf a => { s with bsbuf := memWrite s.bsbuf a (v.setWidth 8) }
  | .pin p row col => s.writePin p row col v
  | .pout p row col => s.writePout p row col v
  | .status => s
  | .errAcc => s
  | .res _ => s
  | .bsBase => s
  | .bsLen => s
  | .bsPos => s
  | .gridW => s
  | .gridH => s
  | .gridValid => s
  | .mbs _ _ => s

/-- A write of `w` to CMD (30 R100, R102): CMD holds `w` (log 14) and the command it names runs to its end; a word that names
none ends with IllegalCommand and nothing else changes (60 R406). -/
def issue (w : Word) (s : State) : Host.Outcome State Fault Refusal :=
  match decode w with
  | .ok i => exec i { s with cmd := w }
  | .error _ => .next ({ s with cmd := w }.fail .illegalCommand)

/-- Reset (70 R440): the spec's state as after reset; the parameters, the host's own accesses and read value, and the
count of free values are no state of the core and stay (log 4, log 5). -/
def State.doReset (s : State) : State :=
  { State.resetOf s.cfg with pending := s.pending, hostData := s.hostData, draws := s.draws }

/-- One access of the host (20 R78, R79): of a shape the location does not have, refused (93 I9); to an element that
does not exist, a fault (log 7). -/
def access (a : HostAccess) (s : State) : Host.Outcome State Fault Refusal :=
  if a.wellFormed then
    match a with
    | .read l _ =>
      match s.hostRead l with
      | some v => .next { s with hostData := v }
      | none => .fault (.noSuchLocation l)
    | .write l _ v =>
      match s.hostRead l with
      | some _ => if l = .cmd then issue v s else .next (s.hostStore l v)
      | none => .fault (.noSuchLocation l)
    | .reset => .next s.doReset
  else .refused (.hostAccess a)

end Sys2Proof.Machine
end

