-- ==== Sys2Proof/Machine/Step.lean ====
section
/-! DEFINITION. One step: the host's next access happens, with the whole of the command it starts (20 R70, R73, R83);
with no access to come the core is idle and holds its state (60 R435; 70 R441). -/

namespace Sys2Proof.Machine

/-- One step of the machine. -/
def step (s : State) : Host.Outcome State Fault Refusal :=
  match s.pending with
  | [] => .next s
  | a :: rest => access a { s with pending := rest }

/-- The host's next access is a write of the command word `w` to CMD (log 4): the core fetches no instruction, so this
is where the next step takes its command from (10 R29; 30 R100). Every word is 32 bits, so `nbits` changes nothing. -/
def State.withFetchWord (s : State) (_nbits w : Nat) : State :=
  { s with pending := .write .cmd .word (BitVec.ofNat 32 w) :: s.pending }

end Sys2Proof.Machine
end

