-- ==== Sys2Proof/Laws/PerInstr.lean ====
section
/-! SUPPORT. Statements for all commands, one lemma per constructor: the command word of a command is well formed
(30 R101, R116), and its opcode is the map's (30 R106). -/

namespace Sys2Proof.Laws.Encoding

/-- The word of `i` has RSVD 0 and a listed OP, and the map reads that OP as `i`. -/
def Statement (i : Instr) : Prop := wellFormedWord (encode i) = true ∧ decodeOp (opcode i) = some i

theorem nop : Statement .nop := ⟨by decide, rfl⟩
theorem clrerr : Statement .clrerr := ⟨by decide, rfl⟩
theorem bsBind : Statement .bsBind := ⟨by decide, rfl⟩
theorem bsReset : Statement .bsReset := ⟨by decide, rfl⟩
theorem bsRead1 : Statement .bsRead1 := ⟨by decide, rfl⟩
theorem bsReadn : Statement .bsReadn := ⟨by decide, rfl⟩
theorem bsWrite : Statement .bsWrite := ⟨by decide, rfl⟩
theorem ueEnc : Statement .ueEnc := ⟨by decide, rfl⟩
theorem ueDec : Statement .ueDec := ⟨by decide, rfl⟩
theorem seEnc : Statement .seEnc := ⟨by decide, rfl⟩
theorem seDec : Statement .seDec := ⟨by decide, rfl⟩
theorem teEnc : Statement .teEnc := ⟨by decide, rfl⟩
theorem teDec : Statement .teDec := ⟨by decide, rfl⟩
theorem ctEnc : Statement .ctEnc := ⟨by decide, rfl⟩
theorem ctDec : Statement .ctDec := ⟨by decide, rfl⟩
theorem tz4Enc : Statement .tz4Enc := ⟨by decide, rfl⟩
theorem tz4Dec : Statement .tz4Dec := ⟨by decide, rfl⟩
theorem tzc2Enc : Statement .tzc2Enc := ⟨by decide, rfl⟩
theorem tzc2Dec : Statement .tzc2Dec := ⟨by decide, rfl⟩
theorem tzc4Enc : Statement .tzc4Enc := ⟨by decide, rfl⟩
theorem tzc4Dec : Statement .tzc4Dec := ⟨by decide, rfl⟩
theorem rbEnc : Statement .rbEnc := ⟨by decide, rfl⟩
theorem rbDec : Statement .rbDec := ⟨by decide, rfl⟩
theorem pfxEnc : Statement .pfxEnc := ⟨by decide, rfl⟩
theorem pfxDec : Statement .pfxDec := ⟨by decide, rfl⟩
theorem cbpEnc : Statement .cbpEnc := ⟨by decide, rfl⟩
theorem cbpDec : Statement .cbpDec := ⟨by decide, rfl⟩
theorem cavlcEnc4 : Statement .cavlcEnc4 := ⟨by decide, rfl⟩
theorem cavlcDec4 : Statement .cavlcDec4 := ⟨by decide, rfl⟩
theorem cavlcEnc2 : Statement .cavlcEnc2 := ⟨by decide, rfl⟩
theorem cavlcDec2 : Statement .cavlcDec2 := ⟨by decide, rfl⟩
theorem fwd4 : Statement .fwd4 := ⟨by decide, rfl⟩
theorem inv4 : Statement .inv4 := ⟨by decide, rfl⟩
theorem fwdDc4 : Statement .fwdDc4 := ⟨by decide, rfl⟩
theorem invDc4 : Statement .invDc4 := ⟨by decide, rfl⟩
theorem fwdDc2 : Statement .fwdDc2 := ⟨by decide, rfl⟩
theorem invDc2 : Statement .invDc2 := ⟨by decide, rfl⟩
theorem qpc : Statement .qpc := ⟨by decide, rfl⟩
theorem mbInit : Statement .mbInit := ⟨by decide, rfl⟩
theorem mbEncode : Statement .mbEncode := ⟨by decide, rfl⟩
theorem mbDecode : Statement .mbDecode := ⟨by decide, rfl⟩
theorem mbSettype : Statement .mbSettype := ⟨by decide, rfl⟩
theorem mbUnpacktype : Statement .mbUnpacktype := ⟨by decide, rfl⟩
theorem mbNc : Statement .mbNc := ⟨by decide, rfl⟩
theorem mbMvp : Statement .mbMvp := ⟨by decide, rfl⟩

end Sys2Proof.Laws.Encoding
end

