-- ==== Sys2Proof/Safety.lean ====
section
/-! DEFINITION. What claims are stated in: the invariants of a sound state (10 R22, R23, R26, R28, R37), how two states
of a command compare (what was written, what was kept), and the textbook form of the transforms (44 section 1). -/

namespace Sys2Proof.Machine

/-! ### Invariants -/

/-- The stream cursor's invariants (10 R26). -/
abbrev State.CursorOk (s : State) : Prop :=
  s.bsPos.toNat ≤ s.bsLen.toNat ∧ 8 * s.bsBase.toNat + s.bsLen.toNat ≤ 8 * s.cfg.bsBytes

/-- Every memory is in canonical form, within its size (10 R34, R35, R36). -/
abbrev State.MemOk (s : State) : Prop :=
  memWf s.cfg.bsBytes s.bsbuf = true ∧
  memWf (planeSize s.cfg .y) s.pinY = true ∧ memWf (planeSize s.cfg .cb) s.pinCb = true ∧
  memWf (planeSize s.cfg .cr) s.pinCr = true ∧
  memWf (planeSize s.cfg .y) s.poutY = true ∧ memWf (planeSize s.cfg .cb) s.poutCb = true ∧
  memWf (planeSize s.cfg .cr) s.poutCr = true

/-- The grid registers: a grid within the largest one, or none (10 R28; 45 R330). -/
abbrev State.GridOk (s : State) : Prop :=
  if s.gridValid then
    1 ≤ s.gridW.toNat ∧ s.gridW.toNat ≤ s.cfg.maxMbw ∧ 1 ≤ s.gridH.toNat ∧ s.gridH.toNat ≤ s.cfg.maxMbh
  else s.gridW = 0 ∧ s.gridH = 0

/-- The record store has its records (10 R37). -/
abbrev State.StoreOk (s : State) : Prop := s.mbs.length = s.cfg.maxMbw * s.cfg.maxMbh

/-- A legal STATUS: a code of 60 R400, a cause only beside MbFailure, BUSY and the reserved bits 0 (10 R22). -/
abbrev statusOk (w : Word) : Prop :=
  statusErr w ≤ 11 ∧ statusCause w ≤ 11 ∧ (statusErr w = 9 ∨ statusCause w = 0) ∧ statusBusy w = false ∧
  statusReserved w = 0

/-- A legal ERRACC: only bits 1 to 11 are ever set (10 R23; 93 I13). -/
abbrev errAccOk (w : Word) : Prop := w &&& 0xFFFFF001#32 = 0#32

/-- The legal values of a coded record's fields (10 R37; 45 R334). -/
abbrev MbRecord.Legal (r : MbRecord) : Prop :=
  (r.stype = 0 ∧ (r.mbType.toNat = 0 ∨ (6 ≤ r.mbType.toNat ∧ r.mbType.toNat ≤ 29)) ∨
    r.stype = 2 ∧ 1 ≤ r.mbType.toNat ∧ r.mbType.toNat ≤ 24) ∧
  (r.intra = false ↔ r.mbType = 0) ∧
  r.qp.toNat ≤ 51 ∧ r.pm.toNat ≤ 3 ∧ r.cpm.toNat ≤ 3 ∧ r.cbp.toNat ≤ 47 ∧
  (r.intra = true → r.mvx = 0 ∧ r.mvy = 0 ∧ r.mvdx = 0 ∧ r.mvdy = 0) ∧
  (r.intra = false → r.pm = 0 ∧ r.cpm = 0) ∧
  (∀ b < 16, (r.tcy.getD b 0).toNat ≤ 16) ∧
  (∀ c < 2, ∀ b < 4, ((r.tcc.getD c (Vector.replicate 4 0)).getD b 0).toNat ≤ 15)

/-- Every record coded in the current pass is legal (10 R37). -/
abbrev State.RecordsOk (s : State) : Prop := ∀ r ∈ s.mbs, r.done = true → r.Legal

/-- A sound state. -/
structure State.Inv (s : State) : Prop where
  params : s.cfg.wf = true
  cursor : s.CursorOk
  mem : s.MemOk
  grid : s.GridOk
  store : s.StoreOk
  status : statusOk s.status
  errAcc : errAccOk s.errAcc
  records : s.RecordsOk

/-! ### How a command ends -/

/-- The command ended with error `k` and nothing but STATUS and ERRACC changed (60 R409, R410). -/
def State.endsClean (s : State) (k : Nat) : State :=
  { s with status := BitVec.ofNat 32 k, errAcc := s.errAcc ||| BitVec.ofNat 32 (2 ^ k) }

/-- RES[i] holds the i-th of the listed results, and the registers after them hold what they held (10 R25; 30 R105). -/
def State.Results (s t : State) (rs : List Int) : Prop :=
  ∀ i < 16, t.getRes i = if i < rs.length then BitVec.ofInt 32 (rs.getD i 0) else s.getRes i

/-! ### The stream -/

/-- The bits from BS_POS on are `bs`, all within the bound stream. -/
def State.Holds (s : State) (bs : List Bool) : Prop :=
  s.bsPos.toNat + bs.length ≤ s.bsLen.toNat ∧ s.stream.bits s.bsPos.toNat bs.length = bs

/-- `n` more bits fit (20 R80). -/
def State.Room (s : State) (n : Nat) : Prop := s.bsPos.toNat + n ≤ s.bsLen.toNat

/-- Byte `a` holds one of the `n` stream bits from BS_POS on (20 R72). -/
def State.Stores (s : State) (n a : Nat) : Prop := ∃ k < n, a = s.bsBase.toNat + (s.bsPos.toNat + k) / 8

/-- `t`'s stream is `s`'s with `bs` written at BS_POS (40 R140, R144; 20 R76): those bits, BS_POS after them, no other
bit of the bytes they lie in, and no other byte. -/
def State.Wrote (s t : State) (bs : List Bool) : Prop :=
  t.bsPos.toNat = s.bsPos.toNat + bs.length ∧
  t.stream.bits s.bsPos.toNat bs.length = bs ∧
  (∀ p, p < s.bsPos.toNat ∨ s.bsPos.toNat + bs.length ≤ p → t.stream.bit p = s.stream.bit p) ∧
  (∀ a, ¬ s.Stores bs.length a → memRead t.bsbuf a = memRead s.bsbuf a)

/-- An encode command completed: it wrote `bs`, reported `rs`, and kept the rest (40 R144; 60 R409). -/
def State.Emits (s t : State) (bs : List Bool) (rs : List Int) : Prop :=
  t = { s with bsbuf := t.bsbuf, bsPos := t.bsPos, res := t.res, status := 0 } ∧ s.Wrote t bs ∧ s.Results t rs

/-- A decode command completed: it moved BS_POS by `n`, reported `rs`, and kept the rest (40 R143; 60 R409). -/
def State.Takes (s t : State) (n : Nat) (rs : List Int) : Prop :=
  t = { s with bsPos := t.bsPos, res := t.res, status := 0 } ∧ t.bsPos.toNat = s.bsPos.toNat + n ∧ s.Results t rs

/-- A command completed that reports `rs` and changes nothing else (60 R409). -/
def State.Reports (s t : State) (rs : List Int) : Prop :=
  t = { s with res := t.res, status := 0 } ∧ s.Results t rs

/-- An encode command with the codeword `c`: it writes and reports it, or ends with StreamOverflow where it does not
fit (40 R144; 42 R180). -/
def State.Codes (s : State) (out : Host.Outcome State Fault Refusal) (c : Codeword) : Prop :=
  (s.Room c.len → ∃ t, out = .next t ∧ s.Emits t (codewordBits c) [c.len, c.pat]) ∧
  (¬ s.Room c.len → out = .next (s.endsClean 4))

/-- A decode command over a table (42 R181): at a codeword it reports that codeword's symbol; where the stream starts
with none, TableMiss when a longest codeword would still fit, and StreamExhausted otherwise. -/
def State.Walks {σ : Type} (s : State) (out : Host.Outcome State Fault Refusal) (tbl : VlcTable σ)
    (report : σ → List Int) : Prop :=
  (∀ x c, (x, c) ∈ tbl → s.Holds (codewordBits c) → ∃ t, out = .next t ∧ s.Takes t c.len (report x)) ∧
  ((∀ e ∈ tbl, ¬ s.Holds (codewordBits e.2)) →
    ∃ t, out = .next t ∧ ((s.Room (maxLen tbl) ∧ t.status = 1) ∨ (¬ s.Room (maxLen tbl) ∧ t.status = 3)))

/-- The class of a context nC (42 R182). -/
def CtClass.Has (c : CtClass) (nc : Int) : Prop :=
  match c with
  | .c01 => nc = 0 ∨ nc = 1
  | .c23 => nc = 2 ∨ nc = 3
  | .c47 => 4 ≤ nc ∧ nc ≤ 7
  | .c8 => 8 ≤ nc
  | .cM1 => nc = -1
  | .cM2 => nc = -2

/-- The bits of ue(v) as 41 R160 spells them: lz zero bits, a 1 bit, and the lz bits of (v + 1) - 2^lz. -/
def ueBits (v : Nat) : List Bool :=
  let lz := Nat.log2 (v + 1)
  List.replicate lz false ++ true :: bitsOf lz (v + 1 - 2 ^ lz)

/-- The stream ends before a ue(v) codeword or sixteen zero bits have been read (41 R161). -/
def State.UeCutShort (s : State) : Prop :=
  (∀ v ≤ 65534, ¬ s.Holds (ueBits v)) ∧ ¬ s.Holds (List.replicate 16 false)

/-- The state with BS_POS after the bits `bs`. -/
def State.past (s : State) (bs : List Bool) : State := { s with bsPos := s.bsPos + BitVec.ofNat 32 bs.length }

/-- The command answers a next state whose STATUS is `w`. -/
def Ends (i : Instr) (s : State) (w : Word) : Prop := ∃ t, exec i s = .next t ∧ t.status = w

/-- Where the stream starts with no codeword of `tbl` at BS_POS of `u`, the command `i` on `s` ends with `miss` when a
longest codeword would still fit, and with `short` otherwise (42 R181). -/
def State.Misses {σ : Type} (u : State) (tbl : VlcTable σ) (i : Instr) (s : State) (miss short : Word) : Prop :=
  (∀ e ∈ tbl, ¬ u.Holds (codewordBits e.2)) →
    (u.Room (maxLen tbl) → Ends i s miss) ∧ (¬ u.Room (maxLen tbl) → Ends i s short)

/-- The bits of an encode procedure's writes, when none of them is a raise. -/
def itemsBits : List Item → Option (List Bool)
  | [] => some []
  | .ok c :: rest => (itemsBits rest).map (codewordBits c ++ ·)
  | .error _ :: _ => none

/-! ### CAVLC blocks -/

/-- The operands of the CAVLC commands are in range (43 R250 to R253): for the 4x4 ones (`four`) maxNumCoeff is 16 less
dcSkip, and for the 2x2 ones it is 4. -/
def State.BlockOperands (s : State) (four : Bool) (maxN : Nat) (nc : Int) : Prop :=
  if four then 0 ≤ s.argInt 0 ∧ nc = s.argInt 0 ∧ ∃ ds : Nat, ds ≤ 1 ∧ s.argInt 1 = ds ∧ maxN = 16 - ds
  else s.argInt 0 = -1 ∧ nc = -1 ∧ s.argInt 1 = 0 ∧ maxN = 4

/-- The writes of a block of `tc` coefficients up to the trailing ones `ones` and the further levels `rest`
(43 R240). -/
def headItems (nc : Int) (tc : Nat) (ones rest : List Int) : List Item :=
  codecStep (coeffToken tc ones.length nc) :: ones.map (fun l => .ok (signCode l))
    ++ levelItems (decide (ones.length < 3)) (initialSuffix tc ones.length) rest

/-- Levels as 43 R232 forms them: the trailing ones are 1 or -1, no other level is 0, and the first other level is no
trailing one unless there are three. -/
def HeadOk (ones rest : List Int) : Prop :=
  (∀ l ∈ ones, l = 1 ∨ l = -1) ∧ (∀ l ∈ rest, l ≠ 0) ∧ (ones.length < 3 → ∀ l ∈ rest.head?, 2 ≤ l.natAbs)

/-! ### The transforms as matrix products over the integers -/

/-- The sum of f over 0, 1, 2, 3. -/
def sum4 (f : Nat → Int) : Int := f 0 + f 1 + f 2 + f 3

/-- Cf (44 R271). -/
def cf (i a : Nat) : Int := ([[1, 1, 1, 1], [2, 1, -1, -2], [1, -1, -1, 1], [1, -2, 2, -1]].getD i []).getD a 0

/-- H (44 R276). -/
def hMat (i a : Nat) : Int := ([[1, 1, 1, 1], [1, 1, -1, -1], [1, -1, -1, 1], [1, -1, 1, -1]].getD i []).getD a 0

/-- H2 (44 R279). -/
def h2Mat (i a : Nat) : Int := ([[1, 1], [1, -1]].getD i []).getD a 0

/-- Element (i, j) of T X Tᵀ for 4x4 matrices. -/
def sandwich (t x : Nat → Nat → Int) (i j : Nat) : Int := sum4 (fun a => sum4 (fun b => t i a * x a b * t j b))

/-- Element (i, j) of T X Tᵀ for 2x2 matrices. -/
def sandwich2 (t x : Nat → Nat → Int) (i j : Nat) : Int :=
  t i 0 * x 0 0 * t j 0 + t i 0 * x 0 1 * t j 1 + t i 1 * x 1 0 * t j 0 + t i 1 * x 1 1 * t j 1

/-- A buffer as a 4x4 matrix (44 R270). -/
def mat4 (v : Vec16) (i j : Nat) : Int := vecInt v (4 * i + j)

/-- DCB[0..3] as a 2x2 matrix (44 R270). -/
def mat2 (v : Vec16) (i j : Nat) : Int := vecInt v (2 * i + j)

/-- The class of position (i, j) (44 R272). -/
def posClass (i j : Nat) : Nat := if i % 2 = 0 ∧ j % 2 = 0 then 0 else if i % 2 = 1 ∧ j % 2 = 1 then 1 else 2

/-- MF[r][class] (44 R272). -/
def mfTable (r c : Nat) : Int :=
  ([[13107, 5243, 8066], [11916, 4660, 7490], [10082, 4194, 6554], [9362, 3647, 5825], [8192, 3355, 5243],
    [7282, 2893, 4559]].getD r []).getD c 0

/-- V[r][class] (44 R272). -/
def vTable (r c : Nat) : Int :=
  ([[10, 16, 13], [11, 18, 14], [13, 20, 16], [14, 23, 18], [16, 25, 20], [18, 29, 23]].getD r []).getD c 0

/-- floor(2^qbits / 3) or floor(2^qbits / 6) (44 R273; 92 D20). -/
def roundOffset (qp : Nat) (intra : Bool) : Int := 2 ^ (15 + qp / 6) / (if intra then 3 else 6)

/-- One quantised coefficient (44 R273). -/
def quantSpec (qp : Nat) (intra : Bool) (i j : Nat) (w : Int) : Int :=
  signInt w * ((absInt w * mfTable (qp % 6) (posClass i j) + roundOffset qp intra) / 2 ^ (15 + qp / 6))

/-- One quantised DC coefficient (44 R277). -/
def dcQuantSpec (qp : Nat) (intra : Bool) (y : Int) : Int :=
  signInt y * ((absInt y * mfTable (qp % 6) 0 + 2 * roundOffset qp intra) / 2 ^ (15 + qp / 6 + 1))

/-- One dequantised coefficient (44 R274). -/
def dequantSpec (qp : Nat) (i j : Nat) (z : Int) : Int := z * vTable (qp % 6) (posClass i j) * 2 ^ (qp / 6)

/-- One scaled luma DC value (44 R278). -/
def dcInv4Spec (qp : Nat) (f : Int) : Int :=
  if 36 ≤ qp then f * (16 * vTable (qp % 6) 0) * 2 ^ (qp / 6 - 6)
  else (f * (16 * vTable (qp % 6) 0) + 2 ^ (5 - qp / 6)) / 2 ^ (6 - qp / 6)

/-- One scaled chroma DC value (44 R280). -/
def dcInv2Spec (qp : Nat) (f : Int) : Int := f * (16 * vTable (qp % 6) 0) * 2 ^ (qp / 6) / 2 ^ 5

/-- The inverse row butterfly without range checks (44 R275): output k of inputs d 0, ..., d 3. -/
def invRow (d : Nat → Int) (k : Nat) : Int :=
  let e0 := d 0 + d 2
  let e1 := d 0 - d 2
  let e2 := d 1 / 2 - d 3
  let e3 := d 1 + d 3 / 2
  match k with
  | 0 => e0 + e3
  | 1 => e1 + e2
  | 2 => e1 - e2
  | _ => e0 - e3

/-- CoreInv without range checks (44 R275): rows, then columns, then (h + 32) >> 6. -/
def coreInvSpec (d : Nat → Nat → Int) (i j : Nat) : Int :=
  (invRow (fun r => invRow (d r) j) i + 32) / 64

/-- A matrix with element (0, 0) replaced. -/
def withDc (d : Nat → Nat → Int) (v : Int) (i j : Nat) : Int := if i = 0 ∧ j = 0 then v else d i j

/-! ### Macroblocks -/

/-- The macroblock operand (45 R375). -/
def State.mArg (s : State) : Nat := (s.argInt 0).toNat

/-- The macroblock at an offset from macroblock m, when that position lies in the grid (45 R320, R323). -/
def State.candidate (s : State) (m : Nat) (dx dy : Int) : Option Nat :=
  let x : Int := (m % s.gridW.toNat : Nat) + dx
  let y : Int := (m / s.gridW.toNat : Nat) + dy
  if 0 ≤ x ∧ x < s.gridW.toNat ∧ 0 ≤ y ∧ y < s.gridH.toNat then some (y * s.gridW.toNat + x).toNat else none

/-- The offsets of A, B, C and D (45 R323). -/
def nbrOffsets : List (Int × Int) := [(-1, 0), (0, -1), (1, -1), (-1, -1)]

/-- Every neighbour in the grid is DONE (45 R327, R373, R374). -/
def State.NeighboursDone (s : State) (m : Nat) : Prop :=
  ∀ d ∈ nbrOffsets, ∀ n, s.candidate m d.1 d.2 = some n → (s.record n).done = true

/-- OrderCheck(m) passes (45 R327). -/
def State.InOrder (s : State) (m : Nat) : Prop :=
  (s.record m).done = false ∧ s.NeighboursDone m ∧ (0 < m → (s.record (m - 1)).done = true)

/-- There is a grid, and ARG0 names a macroblock of it (45 R373 to R376). -/
def State.OnGrid (s : State) : Prop :=
  s.gridValid = true ∧ 0 ≤ s.argInt 0 ∧ s.argInt 0 < s.gridW.toNat * s.gridH.toNat

/-- The operand checks of MB_ENCODE after the slice type's (45 R375). -/
def State.EncodeOperandsOk (s : State) : Prop :=
  (0 ≤ s.argInt 9 ∧ s.argInt 9 ≤ 51 ∧ 0 ≤ s.argInt 3 ∧ s.argInt 3 ≤ 51) ∧
  (s.argInt 4 = 1 ∧ 0 ≤ s.argInt 5 ∧ s.argInt 5 ≤ 3 ∧ 0 ≤ s.argInt 6 ∧ s.argInt 6 ≤ 3 ∨
    s.argInt 4 = 0 ∧ s.argInt 2 = 0)

/-- The check phase of MB_ENCODE passes (45 R375). -/
def State.EncodeReady (s : State) : Prop :=
  s.OnGrid ∧ (s.argInt 2 = 0 ∨ s.argInt 2 = 2) ∧ s.EncodeOperandsOk ∧ s.InOrder s.mArg

/-- The check phase of MB_DECODE passes (45 R376). -/
def State.DecodeReady (s : State) : Prop :=
  s.OnGrid ∧ (s.argInt 2 = 0 ∨ s.argInt 2 = 2) ∧ (0 ≤ s.argInt 9 ∧ s.argInt 9 ≤ 51) ∧ s.InOrder s.mArg

/-- Blocks of a component across a macroblock: 4 luma, 2 chroma. -/
def Comp.across : Comp → Nat
  | .luma => 4
  | _ => 2

/-- The block of a component at column x, row y of its macroblock (45 R321, R322). -/
def Comp.blkAt (c : Comp) (x y : Nat) : Nat :=
  match c with
  | .luma => Sys2Proof.Machine.blkAt x y
  | _ => 2 * y + x

/-- The TotalCoeff of the block at column X, row Y of the whole grid's blocks of a component, when its macroblock has
slice `slice` (45 R325, R326). -/
def State.gridTotal (s : State) (slice : Word) (c : Comp) (X Y : Nat) : Option Int :=
  let r := s.record (Y / c.across * s.gridW.toNat + X / c.across)
  if r.slice = slice then some (r.tc c (c.blkAt (X % c.across) (Y % c.across))) else none

/-- NC(m, comp, b) in coordinates of the whole grid (45 R326): the rounded average of the counts left of and above the
block, the one that is available, or 0. -/
def State.ncSpec (s : State) (m : Nat) (c : Comp) (b : Nat) : Int :=
  let X := c.across * (m % s.gridW.toNat) + c.bx b
  let Y := c.across * (m / s.gridW.toNat) + c.by b
  let slice := (s.record m).slice
  let a := if X = 0 then none else s.gridTotal slice c (X - 1) Y
  let b := if Y = 0 then none else s.gridTotal slice c X (Y - 1)
  match a, b with
  | some nA, some nB => (nA + nB + 1) / 2
  | some nA, none => nA
  | none, some nB => nB
  | none, none => 0

/-- Part(m, X) for the candidate at an offset (45 R340). -/
def State.partSpec (s : State) (m : Nat) (slice : Word) (d : Int × Int) : MvPart :=
  match s.candidate m d.1 d.2 with
  | none => ⟨false, -1, 0, 0⟩
  | some n =>
    if (s.record n).slice ≠ slice then ⟨false, -1, 0, 0⟩
    else if (s.record n).intra then ⟨true, -1, 0, 0⟩
    else ⟨true, 0, (s.record n).mvx.toInt, (s.record n).mvy.toInt⟩

/-- The middle of three. -/
def middle (a b c : Int) : Int := max (min a b) (min (max a b) c)

/-- Mvp(m) for a record of slice `slice` (45 R340). -/
def State.mvpSpec (s : State) (m : Nat) (slice : Word) : Int × Int :=
  let a := s.partSpec m slice (-1, 0)
  let b := s.partSpec m slice (0, -1)
  let c1 := s.partSpec m slice (1, -1)
  let c := if c1.avail then c1 else s.partSpec m slice (-1, -1)
  let parts := if b.avail || c.avail || !a.avail then [a, b, c] else [a, a, a]
  match parts.filter (fun p => decide (p.ref = 0)), parts with
  | [p], _ => (p.x, p.y)
  | _, [p, q, r] => (middle p.x q.x r.x, middle p.y q.y r.y)
  | _, _ => (0, 0)

/-- QpPred(m, sliceQP) (45 R328). -/
def State.qpPredSpec (s : State) (m : Nat) (slice : Word) (sliceQp : Int) : Int :=
  if m ≠ 0 ∧ (s.record (m - 1)).slice = slice then (s.record (m - 1)).qp.toInt else sliceQp

/-- The samples of block b of a component of macroblock m (45 R320 to R322). -/
def State.block (s : State) (m : Nat) (c : Comp) (b : Nat) (i j : Nat) : Int :=
  (s.pinAt c.plane (viewSide c.plane * (m / s.gridW.toNat) + (4 * c.by b + i))
    (viewSide c.plane * (m % s.gridW.toNat) + (4 * c.bx b + j))).toInt

/-- Every sample of macroblock m's input views is a difference of two 8-bit samples. -/
def State.SmallSamples (s : State) (m : Nat) : Prop :=
  ∀ p : Plane, ∀ i < viewSide p, ∀ j < viewSide p,
    (s.pinAt p (viewSide p * (m / s.gridW.toNat) + i) (viewSide p * (m % s.gridW.toNat) + j)).toInt.natAbs ≤ 255

/-- The position (row, col) of a plane lies in macroblock m's view (45 R320). -/
def State.InView (s : State) (m : Nat) (p : Plane) (row col : Nat) : Prop :=
  row / viewSide p = m / s.gridW.toNat ∧ col / viewSide p = m % s.gridW.toNat

/-- QPC for qPI = 0 to 51 (44 R281). -/
def qpcList : List Nat :=
  [0, 1, 2, 3, 4, 5, 6, 7, 8, 9, 10, 11, 12, 13, 14, 15, 16, 17, 18, 19, 20, 21, 22, 23, 24, 25, 26, 27, 28, 29,
   29, 30, 31, 32, 32, 33, 34, 34, 35, 35, 36, 36, 37, 37, 37, 38, 38, 38, 39, 39, 39, 39]

/-- QPc of a QP (44 R281). -/
def qpcSpec (c : Config) (qp : Int) : Nat := qpcList.getD (min 51 (max 0 (qp + c.chromaQpOffset))).toNat 0

/-- The mb_type of a macroblock (45 R333 to R335). -/
def mbTypeSpec (st : Int) (intra : Bool) (pm cbp : Int) : Int :=
  if intra then 1 + pm + 4 * (cbp / 16) + (if cbp % 16 = 15 then 12 else 0) + (if st = 0 then 5 else 0) else 0

/-- The blocks and the coded_block_pattern of `r` are those of the samples of macroblock ARG0 at QP ARG3
(45 R345, R350, R351). -/
def State.QuantisedAs (s : State) (r : MbRecord) : Prop :=
  let m := s.mArg
  let qp := (s.argInt 3).toNat
  let qpc := qpcSpec s.cfg (s.argInt 3)
  let core := fun (c : Comp) (b : Nat) => sandwich cf (s.block m c b)
  let ac := ∃ c ∈ [Comp.cb, .cr], ∃ b < 4, ∃ k < 16, vecInt (r.coef c b) k ≠ 0
  let dc := ∃ c ∈ [Comp.cb, .cr], ∃ k < 4, vecInt (r.dcc c) k ≠ 0
  (∀ b < 16, ∀ i < 4, ∀ j < 4, vecInt (r.coef .luma b) (4 * i + j) =
    quantSpec qp r.intra i j ((if r.intra then withDc (core .luma b) 0 else core .luma b) i j)) ∧
  (∀ i < 4, ∀ j < 4, vecInt r.dcY (4 * i + j) = if r.intra then
    dcQuantSpec qp true (sandwich hMat (fun y x => core .luma (Sys2Proof.Machine.blkAt x y) 0 0) i j / 2) else 0) ∧
  (∀ c ∈ [Comp.cb, .cr],
    (∀ b < 4, ∀ i < 4, ∀ j < 4, vecInt (r.coef c b) (4 * i + j) =
      quantSpec qpc r.intra i j (withDc (core c b) 0 i j)) ∧
    (∀ i < 2, ∀ j < 2, vecInt (r.dcc c) (2 * i + j) =
      dcQuantSpec qpc r.intra (sandwich2 h2Mat (fun y x => core c (2 * y + x) 0 0) i j))) ∧
  (∀ b8 < 4, (r.cbp.toNat % 16).testBit b8 = true ↔
    ∃ b < 16, (r.intra = true ∨ b / 4 = b8) ∧ ∃ k < 16, vecInt (r.coef .luma b) k ≠ 0) ∧
  (ac → r.cbp.toNat / 16 = 2) ∧ (¬ ac → dc → r.cbp.toNat / 16 = 1) ∧ (¬ ac → ¬ dc → r.cbp.toNat / 16 = 0)

/-- The operands of MB_ENCODE (45 R375). -/
def State.encodeArgs (s : State) : EncodeArgs :=
  { m := s.mArg, slice := s.getArg 1, st := s.argInt 2, qp := s.argInt 3, intra := decide (s.argInt 4 = 1),
    pm := s.argInt 5, cpm := s.argInt 6, mvx := s.argInt 7, mvy := s.argInt 8, sliceQp := s.argInt 9 }

/-- The record of a coded macroblock as it was before its macroblock_layer was written (45 R352, R375). -/
def MbRecord.uncounted (r : MbRecord) : MbRecord :=
  { r with
    done := false
    qp := 0
    mvdx := 0
    mvdy := 0
    tcy := MbRecord.fresh.tcy
    tcc := MbRecord.fresh.tcc }

/-- A record's results in RES1 to RES10 (45 R375). -/
def MbRecord.report (r : MbRecord) : List Int :=
  [r.mbType.toInt, r.cbp.toInt, r.qp.toInt, if r.intra then 1 else 0, r.pm.toInt, r.cpm.toInt, r.mvx.toInt,
    r.mvy.toInt, r.mvdx.toInt, r.mvdy.toInt]

/-- The coefficients of a record as an encoder forms them (45 R350): no DC term in a block whose DC term is coded in a
DC block, no luma DC block in an inter macroblock, and magnitudes whose reconstruction stays in range. -/
def MbRecord.Codable (r : MbRecord) : Prop :=
  (∀ c : Comp, ∀ b < c.across * c.across, ∀ k < 16, (vecInt (r.coef c b) k).natAbs ≤ 4096) ∧
  (∀ k < 16, (vecInt r.dcY k).natAbs ≤ 4096) ∧
  (∀ c : Comp, ∀ k < 4, (vecInt (r.dcc c) k).natAbs ≤ 4096) ∧
  (r.intra = true → ∀ b < 16, vecInt (r.coef .luma b) 0 = 0) ∧
  (∀ b < 4, vecInt (r.coef .cb b) 0 = 0 ∧ vecInt (r.coef .cr b) 0 = 0) ∧
  (r.intra = false → r.dcY = zero16)

end Sys2Proof.Machine
end

