-- ==== Sys2Proof/Certificates/Slice0/Obligations.lean ====
section
/-! DEFINITION. The statements for the provers. Each docstring names the rules of spec/ the statement formalises. -/

open Sys2Proof Sys2Proof.Machine

/-! ### The command interface -/

/-- 47 R390, R391: NOP, the all-zero command word, writes STATUS alone; CLRERR clears ERRACC and, but for STATUS,
nothing else. -/
def Obligations.SystemCommands : Prop :=
  encode .nop = 0#32 ∧ encode .clrerr = 1#32 ∧
  ∀ s : State, exec .nop s = .next { s with status := 0 } ∧ exec .clrerr s = .next { s with errAcc := 0, status := 0 }

/-- 30 R101, R106: command words as 95 section 3 writes them, one or more for each family, and two that are illegal
(V702, V703). -/
def Obligations.SpecWordsDecode : Prop :=
  decode 0x00000000#32 = .ok .nop ∧ decode 0x00000001#32 = .ok .clrerr ∧ decode 0x00000008#32 = .ok .bsBind ∧
  decode 0x0000000C#32 = .ok .bsWrite ∧ decode 0x00000010#32 = .ok .ueEnc ∧ decode 0x00000015#32 = .ok .teDec ∧
  decode 0x0000002D#32 = .ok .cbpDec ∧ decode 0x00000030#32 = .ok .cavlcEnc4 ∧ decode 0x00000033#32 = .ok .cavlcDec2 ∧
  decode 0x00000042#32 = .ok .fwdDc4 ∧ decode 0x00000046#32 = .ok .qpc ∧ decode 0x00000051#32 = .ok .mbEncode ∧
  decode 0x00000056#32 = .ok .mbMvp ∧ decode 0x00000002#32 = .error (.reservedOpcode 2) ∧
  decode 0x00000110#32 = .error .reservedBits

/-- 30 R101, R102, R116: a command word decodes to a command exactly when it is that command's one word. -/
def Obligations.DecodeIffEncode : Prop := ∀ (w : Word) (i : Instr), decode w = .ok i ↔ w = encode i

/-- 30 R102: a write to CMD runs the command its word names; a word with CMD[31:8] not 0 or an unlisted opcode ends
with IllegalCommand, and nothing else changes. That the host's accesses are a queue is the model's choice (log 4), and
that CMD holds an illegal word too is its reading of 10 R21 (log 14, DEDUCED). -/
def Obligations.CommandWordDecides : Prop :=
  ∀ (s : State) (w : Word) (rest : List HostAccess), s.pending = .write .cmd .word w :: rest →
    (∀ i, decode w = .ok i → step s = exec i { s with pending := rest, cmd := w }) ∧
    (256 ≤ w.toNat ∨ w.toNat % 256 ∉ definedOpcodes →
      step s = .next ({ s with pending := rest, cmd := w }.endsClean 8)) ∧
    (w.toNat < 256 ∧ w.toNat ∈ definedOpcodes → ∃ i, decode w = .ok i ∧ opcode i = w.toNat)

/-- A step runs the decoded command (30 R100; the model's own withFetchWord, log 4): CMD holds the word, the host's
access is done, and the rest is the command's. -/
def Obligations.StepRunsDecodedCommand : Prop :=
  ∀ (s : State) (w : Word) (i : Instr), decode w = .ok i →
    step (s.withFetchWord 32 w.toNat) = exec i { s with cmd := w }

/-- 60 R409, R400: every command ends in a next state, with one code of 60 R400 in STATUS.ERR, a cause just when it is
MbFailure, BUSY and the reserved bits 0, and the code's bit set in ERRACC. -/
def Obligations.EveryCommandEnds : Prop :=
  ∀ (i : Instr) (s : State), ∃ t e c, exec i s = .next t ∧ e ≤ 11 ∧ c ≤ 11 ∧ (c ≠ 0 ↔ e = 9) ∧
    t.status = BitVec.ofNat 32 (e + 256 * c) ∧
    t.errAcc = (let acc := if i = .clrerr then 0#32 else s.errAcc
      if e = 0 then acc else acc ||| BitVec.ofNat 32 (2 ^ e))

/-- 10 R20, R21, R24, R35: no command writes CMD, ARG or an input plane; nor does any change the machine's parameters
or the host's accesses still to come. -/
def Obligations.CommandsKeepHostState : Prop :=
  ∀ (i : Instr) (s t : State), exec i s = .next t →
    t.cmd = s.cmd ∧ t.arg = s.arg ∧ t.pinY = s.pinY ∧ t.pinCb = s.pinCb ∧ t.pinCr = s.pinCr ∧ t.cfg = s.cfg ∧
    t.pending = s.pending ∧ t.hostData = s.hostData

/-- 10 R20's column "written by commands": every other command leaves the state as it was. -/
def Obligations.WrittenOnlyByNamedCommands : Prop :=
  ∀ (i : Instr) (s t : State), exec i s = .next t →
    (i ≠ .bsBind → t.bsBase = s.bsBase ∧ t.bsLen = s.bsLen) ∧
    (i ≠ .mbInit → t.gridW = s.gridW ∧ t.gridH = s.gridH ∧ t.gridValid = s.gridValid) ∧
    (i ∉ [.mbInit, .mbEncode, .mbDecode] → t.mbs = s.mbs) ∧
    (i ∉ [.cavlcDec4, .cavlcDec2, .fwd4] → t.cb = s.cb) ∧
    (i = .cavlcDec2 → ∀ k, 4 ≤ k → k < 16 → t.cb.getD k 0 = s.cb.getD k 0) ∧
    (i ≠ .inv4 → t.tb = s.tb) ∧
    (i ∉ [.fwdDc4, .invDc4, .fwdDc2, .invDc2] → t.dcb = s.dcb) ∧
    (i ∈ [.fwdDc2, .invDc2] → ∀ k, 4 ≤ k → k < 16 → t.dcb.getD k 0 = s.dcb.getD k 0) ∧
    (i ≠ .mbDecode → t.poutY = s.poutY ∧ t.poutCb = s.poutCb ∧ t.poutCr = s.poutCr) ∧
    (i ∉ [.bsWrite, .ueEnc, .seEnc, .teEnc, .ctEnc, .tz4Enc, .tzc2Enc, .tzc4Enc, .rbEnc, .pfxEnc, .cbpEnc, .cavlcEnc4,
      .cavlcEnc2, .mbEncode] → t.bsbuf = s.bsbuf) ∧
    (i ∈ [.nop, .clrerr, .fwd4, .inv4, .fwdDc4, .invDc4, .fwdDc2, .invDc2, .qpc, .mbInit, .mbSettype, .mbUnpacktype,
      .mbNc, .mbMvp] → t.bsPos = s.bsPos)

/-- 10 R25; 30 R106's column "results": a command writes no RES register but those its rule names. -/
def Obligations.ResOnlyNamed : Prop :=
  ∀ (i : Instr) (s t : State), exec i s = .next t → ∀ k < 16,
    (match i with
      | .nop | .clrerr | .bsBind | .bsReset | .bsWrite | .inv4 | .invDc4 | .invDc2 | .mbInit => True
      | .bsRead1 | .bsReadn | .ueDec | .seDec | .teDec | .tz4Dec | .tzc2Dec | .tzc4Dec | .rbDec | .pfxDec | .cbpDec
      | .qpc | .mbSettype | .mbNc => k ≠ 0
      | .fwdDc4 | .fwdDc2 => k ≠ 1
      | .ueEnc | .seEnc | .teEnc | .ctEnc | .ctDec | .tz4Enc | .tzc2Enc | .tzc4Enc | .rbEnc | .pfxEnc | .fwd4
      | .mbMvp => 2 ≤ k
      | .cbpEnc | .cavlcEnc4 | .cavlcDec4 | .cavlcEnc2 | .cavlcDec2 | .mbUnpacktype => 3 ≤ k
      | .mbEncode | .mbDecode => 11 ≤ k) →
    t.getRes k = s.getRes k

/-- 60 R410: BadOperand, Unsupported, OrderViolation and NoGrid are clean errors of every command, and so is every
error of the bit-stream, Exp-Golomb encode, codebook encode, transform and macroblock query commands: nothing but
STATUS and ERRACC changes. So is, but for MB_ENCODE and MB_DECODE, which write a record first (45 R339), every error
with no stream bit left, since the command's first read or write then fails; that this holds where the command's own
rule calls its stream errors dirty is the model's reading of R410 (log 6, DEDUCED). -/
def Obligations.CleanErrorsChangeNothing : Prop :=
  ∀ (i : Instr) (s t : State), exec i s = .next t →
    (statusErr t.status ∈ [5, 6, 10, 11] ∨
      t.status ≠ 0 ∧ ¬ s.Room 1 ∧ i ∉ [.mbEncode, .mbDecode] ∨
      t.status ≠ 0 ∧ i ∈ [.bsBind, .bsRead1, .bsReadn, .bsWrite, .ueEnc, .seEnc, .teEnc, .ctEnc, .tz4Enc, .tzc2Enc,
        .tzc4Enc, .rbEnc, .pfxEnc, .cbpEnc, .fwd4, .inv4, .fwdDc4, .invDc4, .fwdDc2, .invDc2, .qpc, .mbInit,
        .mbSettype, .mbUnpacktype, .mbNc, .mbMvp]) →
    t = s.endsClean (statusErr t.status)

/-- 60 R411: what a failed command may change. BS_POS stays within [its start value, BS_LEN]; the stream bits before
the start value and from BS_LEN on stay; the records of other macroblocks stay; after MbFailure the record's DONE is
0. (The write-set's values are free values, log 5; ResOnlyNamed and WrittenOnlyByNamedCommands state the rest.) -/
def Obligations.FailedCommandKeeps : Prop :=
  ∀ (i : Instr) (s t : State), exec i s = .next t → t.status ≠ 0 →
    t.bsBase = s.bsBase ∧ t.bsLen = s.bsLen ∧ t.tb = s.tb ∧ t.dcb = s.dcb ∧
    t.gridW = s.gridW ∧ t.gridH = s.gridH ∧ t.gridValid = s.gridValid ∧
    (s.bsPos.toNat ≤ s.bsLen.toNat → s.bsPos.toNat ≤ t.bsPos.toNat ∧ t.bsPos.toNat ≤ s.bsLen.toNat) ∧
    (∀ p, p < s.bsPos.toNat ∨ s.bsLen.toNat ≤ p → t.stream.bit p = s.stream.bit p) ∧
    (∀ n, n ≠ s.mArg → t.record n = s.record n) ∧
    (statusErr t.status = 9 → (t.record s.mArg).done = false)

/-! ### The bit stream -/

/-- 20 R80: a command writes no stream bit at BS_LEN or above, and no byte outside the bound range. -/
def Obligations.StreamWritesBounded : Prop :=
  ∀ (i : Instr) (s t : State), exec i s = .next t →
    (∀ p, s.bsLen.toNat ≤ p → { s.stream with buf := t.bsbuf }.bit p = s.stream.bit p) ∧
    (∀ a, a < s.bsBase.toNat ∨ s.bsBase.toNat + (s.bsLen.toNat + 7) / 8 ≤ a →
      memRead t.bsbuf a = memRead s.bsbuf a)

/-- 20 R80: a command reads no stream bit at BS_LEN or above: on two buffers that agree on the bound stream it does
the same, and leaves buffers that agree on the bound stream. -/
def Obligations.StreamReadsBounded : Prop :=
  ∀ (i : Instr) (s t : State) (b : List Host.Cell),
    (∀ p < s.bsLen.toNat, { s.stream with buf := b }.bit p = s.stream.bit p) → exec i s = .next t →
    ∃ u, exec i { s with bsbuf := b } = .next u ∧ u = { t with bsbuf := u.bsbuf } ∧
      (∀ p < s.bsLen.toNat, { s.stream with buf := u.bsbuf }.bit p = { s.stream with buf := t.bsbuf }.bit p)

/-- 40 R150, R151: BS_BIND binds the cursor, or ends with BadOperand; BS_RESET rewinds it. -/
def Obligations.BsBindAndReset : Prop :=
  ∀ s : State,
    exec .bsBind s = .next (
      if 0 ≤ s.argInt 0 ∧ 0 ≤ s.argInt 1 ∧ 8 * s.argInt 1 + s.argInt 0 ≤ 8 * s.cfg.bsBytes then
        { s with bsBase := s.getArg 1, bsLen := s.getArg 0, bsPos := 0, status := 0 }
      else s.endsClean 5) ∧
    exec .bsReset s = .next { s with bsPos := 0, status := 0 }

/-- 40 R143, R152, R153: BS_READN n gives the next n bits, the first most significant, and moves BS_POS by n;
BS_READ1 gives one bit; both check before they read. -/
def Obligations.BsReadReads : Prop :=
  ∀ s : State,
    (s.argInt 0 < 0 ∨ 32 < s.argInt 0 → exec .bsReadn s = .next (s.endsClean 5)) ∧
    (∀ n ≤ 32, s.argInt 0 = (n : Nat) →
      (¬ s.Room n → exec .bsReadn s = .next (s.endsClean 3)) ∧
      (s.Room n → ∃ t v, exec .bsReadn s = .next t ∧ v < 2 ^ n ∧ s.stream.bits s.bsPos.toNat n = bitsOf n v ∧
        s.Takes t n [(v : Int)])) ∧
    (¬ s.Room 1 → exec .bsRead1 s = .next (s.endsClean 3)) ∧
    (s.Room 1 → ∃ t, exec .bsRead1 s = .next t ∧
      s.Takes t 1 [if s.stream.bit s.bsPos.toNat then 1 else 0])

/-- 40 R144, R154: BS_WRITE writes the low n bits of ARG1, the first most significant, and keeps every other bit. -/
def Obligations.BsWriteWrites : Prop :=
  ∀ s : State,
    (s.argInt 0 < 0 ∨ 32 < s.argInt 0 → exec .bsWrite s = .next (s.endsClean 5)) ∧
    (∀ n ≤ 32, s.argInt 0 = (n : Nat) →
      (¬ s.Room n → exec .bsWrite s = .next (s.endsClean 4)) ∧
      (s.Room n → ∃ t, exec .bsWrite s = .next t ∧ s.Emits t (bitsOf n (s.getArg 1).toNat) []))

/-- 40 R145; 20 R83: a read at the position of a write sees the bits the write left. -/
def Obligations.BsWriteThenRead : Prop :=
  ∀ (s : State) (n : Nat), n ≤ 32 → s.argInt 0 = n → s.Room n →
    ∃ t u, exec .bsWrite s = .next t ∧ exec .bsReadn { t with bsPos := s.bsPos } = .next u ∧
      u.status = 0 ∧ (u.getRes 0).toNat = (s.getArg 1).toNat % 2 ^ n ∧ u.bsPos = t.bsPos ∧ u.bsbuf = t.bsbuf

/-! ### Exp-Golomb -/

/-- UE_ENC writes the Exp-Golomb codeword of ARG0 (41 R160, R170). -/
def Obligations.UeEncWrites : Prop :=
  ∀ s : State,
    (s.argInt 0 < 0 → exec .ueEnc s = .next (s.endsClean 5)) ∧
    (65534 < s.argInt 0 → exec .ueEnc s = .next (s.endsClean 1)) ∧
    (∀ v ≤ 65534, s.argInt 0 = (v : Nat) →
      (¬ s.Room (ueBits v).length → exec .ueEnc s = .next (s.endsClean 4)) ∧
      (s.Room (ueBits v).length → ∃ t, exec .ueEnc s = .next t ∧
        s.Emits t (ueBits v) [((ueBits v).length : Int), (v : Int) + 1]))

/-- 41 R161, R171: UE_DEC reads the symbol whose codeword the stream holds; 16 zero bits are TableMiss; a stream that
holds neither is StreamExhausted. -/
def Obligations.UeDecReads : Prop :=
  ∀ s : State,
    (∀ v ≤ 65534, s.Holds (ueBits v) → ∃ t, exec .ueDec s = .next t ∧ s.Takes t (ueBits v).length [(v : Int)]) ∧
    (s.Holds (List.replicate 16 false) → ∃ t, exec .ueDec s = .next t ∧ t.status = 1) ∧
    (s.UeCutShort → ∃ t, exec .ueDec s = .next t ∧ t.status = 3)

/-- SE_ENC and SE_DEC carry the signed values from -32767 to 32767 (41 R162, R172, R173). -/
def Obligations.SeCommands : Prop :=
  ∀ s : State,
    (s.argInt 0 < -32767 ∨ 32767 < s.argInt 0 → exec .seEnc s = .next (s.endsClean 1)) ∧
    (∀ v : Int, -32767 ≤ v → v ≤ 32767 → ∀ k : Nat, (k : Int) = (if 0 < v then 2 * v - 1 else -2 * v) →
      (s.argInt 0 = v → ¬ s.Room (ueBits k).length → exec .seEnc s = .next (s.endsClean 4)) ∧
      (s.argInt 0 = v → s.Room (ueBits k).length → ∃ t, exec .seEnc s = .next t ∧
        s.Emits t (ueBits k) [((ueBits k).length : Int), (k : Int) + 1]) ∧
      (s.Holds (ueBits k) → ∃ t, exec .seDec s = .next t ∧ s.Takes t (ueBits k).length [v])) ∧
    (s.Holds (List.replicate 16 false) → ∃ t, exec .seDec s = .next t ∧ t.status = 1) ∧
    (s.UeCutShort → ∃ t, exec .seDec s = .next t ∧ t.status = 3)

/-- TE_ENC writes one inverted bit for range maximum 1 and ue(v) above (41 R163, R174). -/
def Obligations.TeEncWrites : Prop :=
  ∀ s : State,
    (s.argInt 1 < 1 → exec .teEnc s = .next (s.endsClean 5)) ∧
    (1 ≤ s.argInt 1 → (s.argInt 0 < 0 ∨ s.argInt 1 < s.argInt 0 ∨ 65534 < s.argInt 0) →
      exec .teEnc s = .next (s.endsClean 1)) ∧
    (s.argInt 1 = 1 → ∀ v ≤ 1, s.argInt 0 = (v : Nat) → s.Codes (exec .teEnc s) ⟨1, 1 - v⟩) ∧
    (2 ≤ s.argInt 1 → ∀ v ≤ 65534, s.argInt 0 = (v : Nat) → (v : Int) ≤ s.argInt 1 →
      (¬ s.Room (ueBits v).length → exec .teEnc s = .next (s.endsClean 4)) ∧
      (s.Room (ueBits v).length → ∃ t, exec .teEnc s = .next t ∧
        s.Emits t (ueBits v) [((ueBits v).length : Int), (v : Int) + 1]))

/-- TE_DEC reads one inverted bit for range maximum 1 and ue(v) up to cMax above (41 R163, R175). -/
def Obligations.TeDecReads : Prop :=
  ∀ s : State,
    (s.argInt 1 < 1 → exec .teDec s = .next (s.endsClean 5)) ∧
    (s.argInt 1 = 1 → ¬ s.Room 1 → exec .teDec s = .next (s.endsClean 3)) ∧
    (s.argInt 1 = 1 → s.Room 1 → ∃ t, exec .teDec s = .next t ∧
      s.Takes t 1 [if s.stream.bit s.bsPos.toNat then 0 else 1]) ∧
    (2 ≤ s.argInt 1 → ∀ v ≤ 65534, s.Holds (ueBits v) → ∃ t, exec .teDec s = .next t ∧
      ((v : Int) ≤ s.argInt 1 → s.Takes t (ueBits v).length [(v : Int)]) ∧
      (s.argInt 1 < (v : Int) → t.status = 1)) ∧
    (2 ≤ s.argInt 1 →
      (s.Holds (List.replicate 16 false) → ∃ t, exec .teDec s = .next t ∧ t.status = 1) ∧
      (s.UeCutShort → ∃ t, exec .teDec s = .next t ∧ t.status = 3))

/-! ### The codebooks -/

/-- 42 R181: every table is prefix-free. -/
def Obligations.TablesPrefixFree : Prop :=
  let free : List Codeword → Prop := fun l =>
    l.Pairwise (fun c d => ¬ codewordBits c <+: codewordBits d ∧ ¬ codewordBits d <+: codewordBits c)
  (∀ c : CtClass, free ((ctTable c).map (·.2))) ∧
  (∀ tc, 1 ≤ tc → tc ≤ 15 → free ((tz4 tc).map (·.2))) ∧
  (∀ tc, 1 ≤ tc → tc ≤ 3 → free ((tz22 tc).map (·.2))) ∧
  (∀ tc, 1 ≤ tc → tc ≤ 7 → free ((tz24 tc).map (·.2))) ∧
  (∀ zl, 1 ≤ zl → free ((rbTable zl).map (·.2)))

/-- CT_ENC writes the coeff_token of its class (42 R182, R183, R200). -/
def Obligations.CtEncWrites : Prop :=
  ∀ s : State,
    (s.argInt 2 < -2 → exec .ctEnc s = .next (s.endsClean 5)) ∧
    (∀ c : CtClass, c.Has (s.argInt 2) →
      (s.argInt 0 < 0 ∨ (maxTc c : Int) < s.argInt 0 ∨ s.argInt 1 < 0 ∨ 3 < s.argInt 1 ∨ s.argInt 0 < s.argInt 1 →
        exec .ctEnc s = .next (s.endsClean 1)) ∧
      (∀ tc t1 : Nat, s.argInt 0 = tc → s.argInt 1 = t1 → tc ≤ maxTc c → t1 ≤ 3 → t1 ≤ tc →
        ∃ w, ((tc, t1), w) ∈ ctTable c ∧ s.Codes (exec .ctEnc s) w))

/-- CT_DEC reads the coeff_token its class's table gives (42 R181, R182, R201). -/
def Obligations.CtDecReads : Prop :=
  ∀ s : State,
    (s.argInt 2 < -2 → exec .ctDec s = .next (s.endsClean 5)) ∧
    (∀ c : CtClass, c.Has (s.argInt 2) →
      s.Walks (exec .ctDec s) (ctTable c) (fun x => [(x.1 : Int), (x.2 : Int)]))

/-- TZ4_ENC, TZC2_ENC and TZC4_ENC write total_zeros by their tables (42 R202, R204, R206). -/
def Obligations.TotalZerosEncWrites : Prop :=
  ∀ (s : State) (e : Instr × Nat × Nat × (Nat → VlcTable Nat)),
    e ∈ [(.tz4Enc, 15, 16, tz4), (.tzc2Enc, 3, 4, tz22), (.tzc4Enc, 7, 8, tz24)] →
    (s.argInt 1 < 1 ∨ (e.2.1 : Int) < s.argInt 1 ∨ s.argInt 0 < 0 ∨ (e.2.2.1 : Int) - s.argInt 1 < s.argInt 0 →
      exec e.1 s = .next (s.endsClean 1)) ∧
    (∀ tz tc : Nat, s.argInt 0 = tz → s.argInt 1 = tc → 1 ≤ tc → tc ≤ e.2.1 → tz + tc ≤ e.2.2.1 →
      ∃ w, (tz, w) ∈ e.2.2.2 tc ∧ s.Codes (exec e.1 s) w)

/-- TZ4_DEC, TZC2_DEC and TZC4_DEC read total_zeros by their tables (42 R181, R203, R205, R207). -/
def Obligations.TotalZerosDecReads : Prop :=
  ∀ (s : State) (e : Instr × Nat × (Nat → VlcTable Nat)),
    e ∈ [(.tz4Dec, 15, tz4), (.tzc2Dec, 3, tz22), (.tzc4Dec, 7, tz24)] →
    (s.argInt 1 < 1 ∨ (e.2.1 : Int) < s.argInt 1 → exec e.1 s = .next (s.endsClean 1)) ∧
    (∀ tc : Nat, s.argInt 1 = tc → 1 ≤ tc → tc ≤ e.2.1 →
      s.Walks (exec e.1 s) (e.2.2 tc) (fun tz => [(tz : Int)]))

/-- RB_ENC and RB_DEC code run_before by the column of zerosLeft (42 R187, R208, R209). -/
def Obligations.RunBeforeCommands : Prop :=
  ∀ s : State,
    (s.argInt 1 < 1 ∨ s.argInt 0 < 0 ∨ s.argInt 1 < s.argInt 0 ∨ 14 < s.argInt 0 →
      exec .rbEnc s = .next (s.endsClean 1)) ∧
    (∀ rb zl : Nat, s.argInt 0 = rb → s.argInt 1 = zl → 1 ≤ zl → rb ≤ zl → rb ≤ 14 →
      ∃ w, (rb, w) ∈ runBefore (min zl 7) ∧ s.Codes (exec .rbEnc s) w) ∧
    (s.argInt 1 < 1 → exec .rbDec s = .next (s.endsClean 1)) ∧
    (∀ rb zl w, s.argInt 1 = (zl : Nat) → 1 ≤ zl → (rb, w) ∈ runBefore (min zl 7) → s.Holds (codewordBits w) →
      ∃ t, exec .rbDec s = .next t ∧ (rb ≤ zl → s.Takes t w.len [(rb : Int)]) ∧ (zl < rb → t.status = 1)) ∧
    (∀ zl : Nat, s.argInt 1 = zl → 1 ≤ zl → (∀ e ∈ runBefore (min zl 7), ¬ s.Holds (codewordBits e.2)) →
      ∃ t, exec .rbDec s = .next t ∧ ((s.Room (maxLen (runBefore (min zl 7))) ∧ t.status = 1) ∨
        (¬ s.Room (maxLen (runBefore (min zl 7))) ∧ t.status = 3)))

/-- PFX_ENC and PFX_DEC code level_prefix as zero bits and a 1 bit, up to 31 (42 R188, R210, R211). -/
def Obligations.LevelPrefixCommands : Prop :=
  ∀ s : State,
    (s.argInt 0 < 0 ∨ 31 < s.argInt 0 → exec .pfxEnc s = .next (s.endsClean 1)) ∧
    (∀ v : Nat, v ≤ 31 → s.argInt 0 = v → s.Codes (exec .pfxEnc s) ⟨v + 1, 1⟩) ∧
    (∀ v : Nat, v ≤ 31 → s.Holds (List.replicate v false ++ [true]) →
      ∃ t, exec .pfxDec s = .next t ∧ s.Takes t (v + 1) [(v : Int)]) ∧
    (s.Holds (List.replicate 32 false) → ∃ t, exec .pfxDec s = .next t ∧ t.status = 1) ∧
    (∀ n < 32, s.Holds (List.replicate n false) → ¬ s.Room (n + 1) → ∃ t, exec .pfxDec s = .next t ∧ t.status = 3)

/-- CBP_ENC and CBP_DEC code coded_block_pattern through its table and ue(v) (42 R189, R212, R213). -/
def Obligations.CbpCommands : Prop :=
  ∀ s : State,
    (s.argInt 1 ≠ 0 ∧ s.argInt 1 ≠ 1 →
      exec .cbpEnc s = .next (s.endsClean 5) ∧ exec .cbpDec s = .next (s.endsClean 5)) ∧
    (∀ f : Bool, s.argInt 1 = (if f then 1 else 0) →
      (s.argInt 0 < 0 ∨ 47 < s.argInt 0 → exec .cbpEnc s = .next (s.endsClean 1)) ∧
      (∀ p : Nat, p ≤ 47 → s.argInt 0 = p → ∃ k ≤ 47, cbpTab f k = p ∧
        (¬ s.Room (ueBits k).length → exec .cbpEnc s = .next (s.endsClean 4)) ∧
        (s.Room (ueBits k).length → ∃ t, exec .cbpEnc s = .next t ∧
          s.Emits t (ueBits k) [((ueBits k).length : Int), (k : Int) + 1, (k : Int)])) ∧
      (∀ k ≤ 65534, s.Holds (ueBits k) → ∃ t, exec .cbpDec s = .next t ∧
        (k ≤ 47 → s.Takes t (ueBits k).length [(cbpTab f k : Int)]) ∧ (47 < k → t.status = 1)) ∧
      (s.Holds (List.replicate 16 false) → ∃ t, exec .cbpDec s = .next t ∧ t.status = 1) ∧
      (s.UeCutShort → ∃ t, exec .cbpDec s = .next t ∧ t.status = 3))

/-! ### CAVLC -/

/-- 43 R234, R235: the level code an encoder chooses is decoded back to the same levelCode, from a suffix of the size
the decoder reads. -/
def Obligations.LevelCodeInverse : Prop :=
  ∀ lc sL p suffix size : Nat, levelCode lc sL = .ok (p, suffix, size) →
    p ≤ 31 ∧ size = levelSuffixSize p sL ∧ suffix < 2 ^ size ∧ levelCodeFrom p suffix sL false = lc ∧
    levelCodeFrom p suffix sL true = lc + 2

/-- 43 R234, R237, R240, R250, R252: with every level at most 2^27 in magnitude, the block is written and reported, or
ends with StreamOverflow where it does not fit. A level that R234 cannot code (every level from 2^28 on is one) ends
the command with CodecError, where the writes before it fit. A coeff_token that does not fit is a clean error, by the
model's reading of 60 R410 (log 6, DEDUCED). -/
def Obligations.CavlcEncWrites : Prop :=
  ∀ s : State,
    (∀ ds : Nat, ds ≤ 1 → 0 ≤ s.argInt 0 → s.argInt 1 = ds → (∀ k < 16, (vecInt s.cb k).natAbs ≤ 2 ^ 27) →
      let cs := (List.range (16 - ds)).map (fun k => vecInt s.cb (zigzag.getD (k + ds) 0))
      ∃ bs, itemsBits (cavlcItems cs (16 - ds) (s.argInt 0)) = some bs ∧
        (s.Room bs.length → ∃ t, exec .cavlcEnc4 s = .next t ∧
          s.Emits t bs [(bs.length : Int), ((cs.filter (fun c => decide (c ≠ 0))).length : Int),
            (trailingOnes cs : Int)]) ∧
        (¬ s.Room bs.length → ∃ t, exec .cavlcEnc4 s = .next t ∧ t.status = 4)) ∧
    (s.argInt 0 = -1 → s.argInt 1 = 0 → (∀ k < 4, (vecInt s.cb k).natAbs ≤ 2 ^ 27) →
      let cs := (List.range 4).map (fun k => vecInt s.cb k)
      ∃ bs, itemsBits (cavlcItems cs 4 (-1)) = some bs ∧
        (s.Room bs.length → ∃ t, exec .cavlcEnc2 s = .next t ∧
          s.Emits t bs [(bs.length : Int), ((cs.filter (fun c => decide (c ≠ 0))).length : Int),
            (trailingOnes cs : Int)]) ∧
        (¬ s.Room bs.length → ∃ t, exec .cavlcEnc2 s = .next t ∧ t.status = 4)) ∧
    (∀ four maxN nc, s.BlockOperands four maxN nc →
      let i : Instr := if four then .cavlcEnc4 else .cavlcEnc2
      let cs := if four then (List.range maxN).map (fun k => vecInt s.cb (zigzag.getD (k + (16 - maxN)) 0))
        else (List.range 4).map (fun k => vecInt s.cb k)
      ((∃ c ∈ cs, 2 ^ 28 ≤ c.natAbs) → s.Room 1024 → Ends i s 2) ∧
      (∀ w rest, cavlcItems cs maxN nc = .ok w :: rest → ¬ s.Room w.len → exec i s = .next (s.endsClean 4)) ∧
      (∀ pre e rest bs, cavlcItems cs maxN nc = pre ++ .error e :: rest → itemsBits pre = some bs →
        (s.Room bs.length → Ends i s 2) ∧ (¬ s.Room bs.length → Ends i s 4))) ∧
    ((s.argInt 0 < 0 ∨ s.argInt 1 ≠ 0 ∧ s.argInt 1 ≠ 1) →
      exec .cavlcEnc4 s = .next (s.endsClean 5) ∧ exec .cavlcDec4 s = .next (s.endsClean 5)) ∧
    ((s.argInt 0 ≠ -1 ∨ s.argInt 1 ≠ 0) →
      exec .cavlcEnc2 s = .next (s.endsClean 5) ∧ exec .cavlcDec2 s = .next (s.endsClean 5))

/-- 43 R241, R251, R253: a stream that holds the code of a list is decoded to that list, with its counts. -/
def Obligations.CavlcDecReads : Prop :=
  ∀ (s : State) (cs : List Int) (bs : List Bool), (∀ c ∈ cs, inInt32 c = true) → s.Holds bs →
    (∀ ds : Nat, ds ≤ 1 → 0 ≤ s.argInt 0 → s.argInt 1 = ds → cs.length = 16 - ds →
      itemsBits (cavlcItems cs (16 - ds) (s.argInt 0)) = some bs →
      ∃ t, exec .cavlcDec4 s = .next t ∧ t = { s with cb := t.cb, bsPos := t.bsPos, res := t.res, status := 0 } ∧
        t.bsPos.toNat = s.bsPos.toNat + bs.length ∧
        s.Results t [(bs.length : Int), ((cs.filter (fun c => decide (c ≠ 0))).length : Int), (trailingOnes cs : Int)] ∧
        (∀ k < 16 - ds, vecInt t.cb (zigzag.getD (k + ds) 0) = cs.getD k 0) ∧ (ds = 1 → vecInt t.cb 0 = 0)) ∧
    (s.argInt 0 = -1 → s.argInt 1 = 0 → cs.length = 4 → itemsBits (cavlcItems cs 4 (-1)) = some bs →
      ∃ t, exec .cavlcDec2 s = .next t ∧ t = { s with cb := t.cb, bsPos := t.bsPos, res := t.res, status := 0 } ∧
        t.bsPos.toNat = s.bsPos.toNat + bs.length ∧
        s.Results t [(bs.length : Int), ((cs.filter (fun c => decide (c ≠ 0))).length : Int), (trailingOnes cs : Int)] ∧
        ∀ k < 16, vecInt t.cb k = if k < 4 then cs.getD k 0 else vecInt s.cb k)

/-- 43 R237, R241: when a CAVLC decode command ends with CodecError (2) or StreamExhausted (3). CodecError: no
coeff_token, a TotalCoeff above maxNumCoeff, a level_prefix of thirty-two zero bits, no total_zeros or one above
maxNumCoeff - TotalCoeff, no run_before or one above zerosLeft. StreamExhausted: a stream that ends within a
codeword, or before the end of a block that a longer stream would complete. -/
def Obligations.CavlcDecStops : Prop :=
  ∀ (s : State) (four : Bool) (maxN : Nat) (nc : Int), s.BlockOperands four maxN nc →
    let i : Instr := if four then .cavlcDec4 else .cavlcDec2
    (∀ (t : State) (len : Word), exec i s = .next t → t.status = 0 → len.toNat < t.bsPos.toNat →
      Ends i { s with bsLen := len } 3) ∧
    (∀ c : CtClass, c.Has nc →
      s.Misses (ctTable c) i s 2 3 ∧
      ∀ tc t1 w, ((tc, t1), w) ∈ ctTable c → maxN < tc → s.Holds (codewordBits w) → Ends i s 2) ∧
    (∀ (tc : Nat) (ones rest : List Int) (bs : List Bool), HeadOk ones rest → tc ≤ maxN →
      itemsBits (headItems nc tc ones rest) = some bs → s.Holds bs →
      (ones.length + rest.length < tc → (s.past bs).Holds (List.replicate 32 false) → Ends i s 2) ∧
      (0 < tc → tc < maxN → ones.length + rest.length = tc →
        (s.past bs).Misses (tzTable maxN tc) i s 2 3 ∧
        ∀ tz w, (tz, w) ∈ tzTable maxN tc → (s.past bs).Holds (codewordBits w) →
          (maxN - tc < tz → Ends i s 2) ∧
          (tz ≤ maxN - tc → ∀ (rs : List Nat) (rbs : List Bool), rs.length + 1 < tc →
            itemsBits (runItems tz rs) = some rbs → (s.past (bs ++ codewordBits w)).Holds rbs →
            let zl := tz - rs.sum
            let u := s.past (bs ++ codewordBits w ++ rbs)
            0 < zl → u.Misses (rbTable zl) i s 2 3 ∧
              ∀ r c, (r, c) ∈ rbTable zl → zl < r → u.Holds (codewordBits c) → Ends i s 2)))

/-- 43 R241's round trip: the bits an encode command wrote, decoded at the same position, give back the coefficients
(CB[0] apart with dcSkip 1, which is written 0) and the same bits, TotalCoeff and TrailingOnes. -/
def Obligations.CavlcRoundTrip : Prop :=
  ∀ (s t : State) (old : Vec16), t.status = 0 →
    (exec .cavlcEnc4 s = .next t → ∃ u, exec .cavlcDec4 { t with bsPos := s.bsPos, cb := old } = .next u ∧
      u.status = 0 ∧ u.bsPos = t.bsPos ∧ u.bsbuf = t.bsbuf ∧ u.res = t.res ∧
      ∀ k < 16, vecInt u.cb k = if k = 0 ∧ s.argInt 1 = 1 then 0 else vecInt s.cb k) ∧
    (exec .cavlcEnc2 s = .next t → ∃ u, exec .cavlcDec2 { t with bsPos := s.bsPos, cb := old } = .next u ∧
      u.status = 0 ∧ u.bsPos = t.bsPos ∧ u.bsbuf = t.bsbuf ∧ u.res = t.res ∧
      ∀ k < 16, vecInt u.cb k = if k < 4 then vecInt s.cb k else vecInt old k)

/-! ### Transform and quantisation -/

/-- FWD4 gives the core transform of TB, its DC taken out and quantised as ARG0 asks (44 R271, R273, R290). -/
def Obligations.Fwd4Transforms : Prop :=
  ∀ s : State,
    (8 ≤ (s.getArg 0).toNat ∨ (s.argFlag 0 0 = true ∧ (s.argInt 1 < 0 ∨ 51 < s.argInt 1)) →
      exec .fwd4 s = .next (s.endsClean 5)) ∧
    ((s.getArg 0).toNat < 8 → (s.argFlag 0 0 = true → 0 ≤ s.argInt 1 ∧ s.argInt 1 ≤ 51) →
      let w := sandwich cf (mat4 s.tb)
      let w' := if s.argFlag 0 1 then withDc w 0 else w
      let z := fun i j => if s.argFlag 0 0 then quantSpec (s.argInt 1).toNat (s.argFlag 0 2) i j (w' i j) else w' i j
      let done := ∃ t, exec .fwd4 s = .next t ∧ t = { s with cb := t.cb, res := t.res, status := 0 } ∧
        (∀ i < 4, ∀ j < 4, mat4 t.cb i j = z i j) ∧
        s.Results t [w 0 0, (((List.range 16).filter (fun k => decide (z (k / 4) (k % 4) ≠ 0))).length : Int)]
      (done ∨ exec .fwd4 s = .next (s.endsClean 7)) ∧ ((∀ k < 16, (vecInt s.tb k).natAbs ≤ 4096) → done))

/-- INV4 gives the inverse core transform of CB, dequantised and its DC replaced as ARG0 asks (44 R274, R275, R291).
That it completes whatever CB[0] holds when DCI is set is the model's reading of R291's "CB[0] is not read" (log 13,
DEDUCED). -/
def Obligations.Inv4Transforms : Prop :=
  ∀ s : State,
    (4 ≤ (s.getArg 0).toNat ∨ (s.argFlag 0 0 = true ∧ (s.argInt 1 < 0 ∨ 51 < s.argInt 1)) →
      exec .inv4 s = .next (s.endsClean 5)) ∧
    ((s.getArg 0).toNat < 4 → (s.argFlag 0 0 = true → 0 ≤ s.argInt 1 ∧ s.argInt 1 ≤ 51) →
      let d := fun i j => if s.argFlag 0 0 then dequantSpec (s.argInt 1).toNat i j (mat4 s.cb i j) else mat4 s.cb i j
      let d' := if s.argFlag 0 1 then withDc d (s.argInt 2) else d
      let done := ∃ t, exec .inv4 s = .next t ∧ t = { s with tb := t.tb, status := 0 } ∧
        ∀ i < 4, ∀ j < 4, mat4 t.tb i j = coreInvSpec d' i j
      (done ∨ exec .inv4 s = .next (s.endsClean 7)) ∧
      ((∀ k < 16, (k = 0 ∧ s.argFlag 0 1 = true) ∨ (vecInt s.cb k).natAbs ≤ 2 ^ 13) →
        (s.argFlag 0 1 = true → (s.argInt 2).natAbs ≤ 2 ^ 26) → done))

/-- FWD_DC4 gives the halved Hadamard transform of DCB, quantised as ARG0 asks (44 R276, R277, R292). -/
def Obligations.FwdDc4Transforms : Prop :=
  ∀ s : State,
    ((s.getArg 0).toNat ∉ [0, 1, 4, 5] ∨ (s.argFlag 0 0 = true ∧ (s.argInt 1 < 0 ∨ 51 < s.argInt 1)) →
      exec .fwdDc4 s = .next (s.endsClean 5)) ∧
    ((s.getArg 0).toNat ∈ [0, 1, 4, 5] → (s.argFlag 0 0 = true → 0 ≤ s.argInt 1 ∧ s.argInt 1 ≤ 51) →
      let y := fun i j => sandwich hMat (mat4 s.dcb) i j / 2
      let z := fun i j => if s.argFlag 0 0 then dcQuantSpec (s.argInt 1).toNat (s.argFlag 0 2) (y i j) else y i j
      let done := ∃ t, exec .fwdDc4 s = .next t ∧ t = { s with dcb := t.dcb, res := t.res, status := 0 } ∧
        (∀ i < 4, ∀ j < 4, mat4 t.dcb i j = z i j) ∧
        (t.getRes 1).toNat = ((List.range 16).filter (fun k => decide (z (k / 4) (k % 4) ≠ 0))).length
      (done ∨ exec .fwdDc4 s = .next (s.endsClean 7)) ∧ ((∀ k < 16, (vecInt s.dcb k).natAbs ≤ 2 ^ 13) → done))

/-- INV_DC4 gives the Hadamard transform of DCB, scaled as ARG0 asks (44 R276, R278, R293). -/
def Obligations.InvDc4Transforms : Prop :=
  ∀ s : State,
    (2 ≤ (s.getArg 0).toNat ∨ (s.argFlag 0 0 = true ∧ (s.argInt 1 < 0 ∨ 51 < s.argInt 1)) →
      exec .invDc4 s = .next (s.endsClean 5)) ∧
    ((s.getArg 0).toNat < 2 → (s.argFlag 0 0 = true → 0 ≤ s.argInt 1 ∧ s.argInt 1 ≤ 51) →
      let f := sandwich hMat (mat4 s.dcb)
      let done := ∃ t, exec .invDc4 s = .next t ∧ t = { s with dcb := t.dcb, status := 0 } ∧
        ∀ i < 4, ∀ j < 4, mat4 t.dcb i j = if s.argFlag 0 0 then dcInv4Spec (s.argInt 1).toNat (f i j) else f i j
      (done ∨ exec .invDc4 s = .next (s.endsClean 7)) ∧ ((∀ k < 16, (vecInt s.dcb k).natAbs ≤ 2 ^ 16) → done))

/-- FWD_DC2 and INV_DC2 transform DCB[0..3] and keep DCB[4..15] (44 R277, R279, R280, R294, R295). -/
def Obligations.Dc2Transforms : Prop :=
  ∀ s : State,
    ((s.getArg 0).toNat ∉ [0, 1, 4, 5] ∨ (s.argFlag 0 0 = true ∧ (s.argInt 1 < 0 ∨ 51 < s.argInt 1)) →
      exec .fwdDc2 s = .next (s.endsClean 5)) ∧
    (2 ≤ (s.getArg 0).toNat ∨ (s.argFlag 0 0 = true ∧ (s.argInt 1 < 0 ∨ 51 < s.argInt 1)) →
      exec .invDc2 s = .next (s.endsClean 5)) ∧
    ((s.argFlag 0 0 = true → 0 ≤ s.argInt 1 ∧ s.argInt 1 ≤ 51) →
      let f := sandwich2 h2Mat (mat2 s.dcb)
      let q := (s.argInt 1).toNat
      let z := fun k => if s.argFlag 0 0 then dcQuantSpec q (s.argFlag 0 2) (f (k / 2) (k % 2)) else f (k / 2) (k % 2)
      let r := fun k => if s.argFlag 0 0 then dcInv2Spec q (f (k / 2) (k % 2)) else f (k / 2) (k % 2)
      let fwdDone := ∃ t, exec .fwdDc2 s = .next t ∧ t = { s with dcb := t.dcb, res := t.res, status := 0 } ∧
        (∀ k < 16, vecInt t.dcb k = if k < 4 then z k else vecInt s.dcb k) ∧
        (t.getRes 1).toNat = ((List.range 4).filter (fun k => decide (z k ≠ 0))).length
      let invDone := ∃ t, exec .invDc2 s = .next t ∧ t = { s with dcb := t.dcb, status := 0 } ∧
        (∀ k < 16, vecInt t.dcb k = if k < 4 then r k else vecInt s.dcb k)
      ((s.getArg 0).toNat ∈ [0, 1, 4, 5] →
        (fwdDone ∨ exec .fwdDc2 s = .next (s.endsClean 7)) ∧ ((∀ k < 4, (vecInt s.dcb k).natAbs ≤ 2 ^ 14) → fwdDone)) ∧
      ((s.getArg 0).toNat < 2 →
        (invDone ∨ exec .invDc2 s = .next (s.endsClean 7)) ∧ ((∀ k < 4, (vecInt s.dcb k).natAbs ≤ 2 ^ 12) → invDone)))

/-- QPC gives the chroma QP of a QP under CHROMA_QP_OFFSET (44 R281, R296). -/
def Obligations.QpcLooksUp : Prop :=
  ∀ s : State,
    (s.argInt 0 < 0 ∨ 51 < s.argInt 0 → exec .qpc s = .next (s.endsClean 5)) ∧
    (0 ≤ s.argInt 0 → s.argInt 0 ≤ 51 → ∃ t, exec .qpc s = .next t ∧
      s.Reports t [(qpcSpec s.cfg (s.argInt 0) : Int)])

/-! ### Macroblocks -/

/-- MB_INIT sets the grid and makes its records fresh (45 R330, R338). -/
def Obligations.MbInitSetsGrid : Prop :=
  ∀ s : State,
    (¬ (1 ≤ s.argInt 0 ∧ s.argInt 0 ≤ s.cfg.maxMbw ∧ 1 ≤ s.argInt 1 ∧ s.argInt 1 ≤ s.cfg.maxMbh) →
      exec .mbInit s = .next (s.endsClean 5)) ∧
    (1 ≤ s.argInt 0 → s.argInt 0 ≤ s.cfg.maxMbw → 1 ≤ s.argInt 1 → s.argInt 1 ≤ s.cfg.maxMbh →
      ∃ t, exec .mbInit s = .next t ∧
        t = { s with gridW := s.getArg 0, gridH := s.getArg 1, gridValid := true, mbs := t.mbs, status := 0 } ∧
        t.mbs.length = s.mbs.length ∧
        (∀ m : Nat, (m : Int) < s.argInt 0 * s.argInt 1 → t.record m = MbRecord.fresh) ∧
        (∀ m : Nat, s.argInt 0 * s.argInt 1 ≤ (m : Int) → t.record m = s.record m))

/-- MB_SETTYPE packs mb_type (45 R333, R335, R371). -/
def Obligations.MbSettypePacks : Prop :=
  ∀ s : State,
    let st := s.argInt 0
    let intra := s.argInt 1
    let pm := s.argInt 2
    let cbp := s.argInt 3
    (st ≠ 0 ∧ st ≠ 2 → exec .mbSettype s = .next (s.endsClean 6)) ∧
    ((st = 0 ∨ st = 2) → intra ≠ 0 ∧ intra ≠ 1 ∨ intra = 0 ∧ st = 2 → exec .mbSettype s = .next (s.endsClean 5)) ∧
    (st = 0 → intra = 0 → ∃ t, exec .mbSettype s = .next t ∧ s.Reports t [0]) ∧
    ((st = 0 ∨ st = 2) → intra = 1 → (pm < 0 ∨ 3 < pm ∨ cbp < 0 ∨ 47 < cbp ∨ cbp % 16 ≠ 0 ∧ cbp % 16 ≠ 15) →
      exec .mbSettype s = .next (s.endsClean 1)) ∧
    ((st = 0 ∨ st = 2) → intra = 1 → 0 ≤ pm → pm ≤ 3 → 0 ≤ cbp → cbp ≤ 47 → (cbp % 16 = 0 ∨ cbp % 16 = 15) →
      ∃ t, exec .mbSettype s = .next t ∧
        s.Reports t [1 + pm + 4 * (cbp / 16) + (if cbp % 16 = 15 then 12 else 0) + (if st = 0 then 5 else 0)])

/-- MB_UNPACKTYPE unpacks mb_type (45 R334, R336, R337, R372). -/
def Obligations.MbUnpacktypeUnpacks : Prop :=
  ∀ s : State,
    let st := s.argInt 0
    let t0 := s.argInt 1
    let u := if st = 0 then t0 - 6 else t0 - 1
    (st ≠ 0 ∧ st ≠ 2 → exec .mbUnpacktype s = .next (s.endsClean 6)) ∧
    ((st = 0 ∨ st = 2) → (t0 < 0 ∨ 24 < u) → exec .mbUnpacktype s = .next (s.endsClean 1)) ∧
    (st = 0 → t0 = 0 → ∃ t, exec .mbUnpacktype s = .next t ∧ s.Reports t [0, 0, -1]) ∧
    ((st = 0 ∧ 1 ≤ t0 ∧ t0 ≤ 5 ∨ st = 2 ∧ t0 = 0 ∨ (st = 0 ∨ st = 2) ∧ u = 24) →
      exec .mbUnpacktype s = .next (s.endsClean 6)) ∧
    ((st = 0 ∨ st = 2) → 0 ≤ u → u ≤ 23 → ∃ t, exec .mbUnpacktype s = .next t ∧
      s.Reports t [1, u % 4, (if 12 ≤ u then 15 else 0) + 16 * (u / 4 % 3)])

/-- 45 R336: SetType and UnpackMbType are inverses. -/
def Obligations.MbTypeRoundTrip : Prop :=
  ∀ (s t : State), exec .mbSettype s = .next t → t.status = 0 →
    ∃ u, exec .mbUnpacktype { t with arg := t.arg.setIfInBounds 1 (t.getRes 0) } = .next u ∧ u.status = 0 ∧
      (s.argInt 1 = 1 → (u.getRes 0).toInt = 1 ∧ (u.getRes 1).toInt = s.argInt 2 ∧ (u.getRes 2).toInt = s.argInt 3) ∧
      (s.argInt 1 = 0 → (u.getRes 0).toInt = 0 ∧ (u.getRes 1).toInt = 0 ∧ (u.getRes 2).toInt = -1)

/-- 60 R405, R413; 45 R327, R373 to R376: the checks of the grid commands, first failure first: NoGrid, the macroblock
index, each command's own operands, and the order of macroblocks. -/
def Obligations.GridCommandChecks : Prop :=
  ∀ s : State,
    (s.gridValid = false → ∀ i ∈ [.mbEncode, .mbDecode, .mbNc, .mbMvp], exec i s = .next (s.endsClean 11)) ∧
    (s.gridValid = true → ¬ s.OnGrid → ∀ i ∈ [.mbEncode, .mbDecode, .mbNc, .mbMvp],
      exec i s = .next (s.endsClean 5)) ∧
    (s.OnGrid → s.argInt 2 ≠ 0 → s.argInt 2 ≠ 2 → ∀ i ∈ [.mbEncode, .mbDecode], exec i s = .next (s.endsClean 6)) ∧
    (s.OnGrid → (s.argInt 2 = 0 ∨ s.argInt 2 = 2) →
      (¬ s.EncodeOperandsOk → exec .mbEncode s = .next (s.endsClean 5)) ∧
      (s.EncodeOperandsOk → ¬ s.InOrder s.mArg → exec .mbEncode s = .next (s.endsClean 10)) ∧
      (s.argInt 9 < 0 ∨ 51 < s.argInt 9 → exec .mbDecode s = .next (s.endsClean 5)) ∧
      (0 ≤ s.argInt 9 → s.argInt 9 ≤ 51 → ¬ s.InOrder s.mArg → exec .mbDecode s = .next (s.endsClean 10))) ∧
    (s.OnGrid → ¬ s.NeighboursDone s.mArg → exec .mbMvp s = .next (s.endsClean 10))

/-- MB_NC gives the CAVLC context of a block (45 R324 to R326, R373). -/
def Obligations.MbNcQueries : Prop :=
  ∀ s : State, s.OnGrid →
    (s.argInt 1 < 0 ∨ 2 < s.argInt 1 → exec .mbNc s = .next (s.endsClean 5)) ∧
    (∀ c : Comp, s.argInt 1 = (match c with | .luma => 0 | .cb => 1 | .cr => 2) →
      (s.argInt 2 < 0 ∨ (c.across * c.across : Nat) ≤ s.argInt 2 → exec .mbNc s = .next (s.endsClean 5)) ∧
      (∀ b < c.across * c.across, s.argInt 2 = (b : Nat) →
        (¬ s.NeighboursDone s.mArg → exec .mbNc s = .next (s.endsClean 10)) ∧
        (s.NeighboursDone s.mArg → ∃ t, exec .mbNc s = .next t ∧ s.Reports t [s.ncSpec s.mArg c b])))

/-- MB_MVP gives the predicted motion vector (45 R323, R325, R340, R374). That it completes for vectors of any size,
the sums inside Median not being range-checked, is the model's reading of 60 R407 (log 15, DEDUCED). -/
def Obligations.MbMvpQueries : Prop :=
  ∀ s : State, s.OnGrid → s.NeighboursDone s.mArg →
    ∃ t, exec .mbMvp s = .next t ∧
      s.Reports t [(s.mvpSpec s.mArg (s.record s.mArg).slice).1, (s.mvpSpec s.mArg (s.record s.mArg).slice).2]

/-- 45 R334, R335, R350, R352, R375; 30 R112: MB_ENCODE codes every macroblock whose samples are differences of 8-bit
samples and whose motion vector difference se(v) can carry: the record it leaves, with its mb_type, blocks, pattern
and counts, the bits of its macroblock_layer, at most 65536, which it writes and reports when they fit, and MbFailure
with CAUSE StreamOverflow when they do not. That it completes for neighbours' motion vectors of any size, the sums
inside Median not being range-checked, is the model's reading of 60 R407 (log 15, DEDUCED). -/
def Obligations.MbEncodeCompletes : Prop :=
  ∀ s : State, s.Inv → s.EncodeReady → s.SmallSamples s.mArg →
    (s.argInt 4 = 0 → (s.argInt 7 - (s.mvpSpec s.mArg (s.getArg 1)).1).natAbs ≤ 32767 ∧
      (s.argInt 8 - (s.mvpSpec s.mArg (s.getArg 1)).2).natAbs ≤ 32767) →
    ∃ (r : MbRecord) (bs : List Bool),
      r.done = true ∧ r.slice = s.getArg 1 ∧ r.stype = s.getArg 2 ∧ r.intra = decide (s.argInt 4 = 1) ∧
      (s.argInt 4 = 1 → r.pm = s.getArg 5 ∧ r.cpm = s.getArg 6 ∧ r.qp = s.getArg 3 ∧ r.mvx = 0 ∧ r.mvy = 0 ∧
        r.mvdx = 0 ∧ r.mvdy = 0) ∧
      (s.argInt 4 = 0 → r.pm = 0 ∧ r.cpm = 0 ∧ r.mvx = s.getArg 7 ∧ r.mvy = s.getArg 8 ∧
        r.mvdx.toInt = s.argInt 7 - (s.mvpSpec s.mArg (s.getArg 1)).1 ∧
        r.mvdy.toInt = s.argInt 8 - (s.mvpSpec s.mArg (s.getArg 1)).2 ∧
        (r.cbp ≠ 0 → r.qp = s.getArg 3) ∧
        (r.cbp = 0 → r.qp.toInt = s.qpPredSpec s.mArg (s.getArg 1) (s.argInt 9))) ∧
      s.QuantisedAs r ∧ r.cbp.toNat ≤ 47 ∧
      r.mbType.toInt = mbTypeSpec (s.argInt 2) r.intra (s.argInt 5) r.cbp.toInt ∧
      (∀ c : Comp, ∀ b < c.across * c.across, r.tc c b =
        (((List.range 16).filter (fun k => decide (vecInt (r.coef c b) k ≠ 0))).length : Int)) ∧
      itemsBits (layerItems s s.encodeArgs r.uncounted).1 = some bs ∧ bs.length ≤ 65536 ∧
      (s.Room bs.length → ∃ t, exec .mbEncode s = .next t ∧
        t = { s with bsbuf := t.bsbuf, bsPos := t.bsPos, res := t.res, mbs := t.mbs, status := 0 } ∧
        t.record s.mArg = r ∧ (∀ n, n ≠ s.mArg → t.record n = s.record n) ∧
        s.Wrote t bs ∧ s.Results t ((bs.length : Int) :: r.report)) ∧
      (¬ s.Room bs.length → Ends .mbEncode s 0x409)

/-- 45 R345, R350, R351: the quantised blocks and the coded block pattern of a macroblock MB_ENCODE has coded. -/
def Obligations.MbEncodeQuantises : Prop :=
  ∀ s t : State, s.GridOk → s.StoreOk → exec .mbEncode s = .next t → t.status = 0 → s.QuantisedAs (t.record s.mArg)

/-- 30 R112, R113; 45 R360, R376: a stream that holds the macroblock_layer of a record is decoded to that record. That
it is for neighbours' motion vectors of any size is the model's reading of 60 R407 (log 15, DEDUCED). -/
def Obligations.MbDecodeReads : Prop :=
  ∀ (s : State) (a : EncodeArgs) (r : MbRecord) (bs : List Bool), s.Inv → s.DecodeReady →
    a.m = s.mArg → a.slice = s.getArg 1 → a.st = s.argInt 2 → a.sliceQp = s.argInt 9 → 0 ≤ a.qp → a.qp ≤ 51 →
    0 ≤ a.pm → a.pm ≤ 3 → 0 ≤ a.cpm → a.cpm ≤ 3 → inInt32 a.mvx = true → inInt32 a.mvy = true →
    (a.intra = true ∨ a.st = 0) →
    (∃ cy dy cc dc, r = { encodeRecord a with
      coefY := cy, dcY := dy, coefC := cc, dcC := dc, cbp := r.cbp, mbType := r.mbType }) →
    r.Codable → r.cbp = toWord (codedBlockPattern r) →
    setType a.st (boolInt a.intra) a.pm (codedBlockPattern r) = .ok r.mbType.toInt →
    itemsBits (layerItems s a r).1 = some bs → s.Holds bs →
    ∃ t, exec .mbDecode s = .next t ∧ t.status = 0 ∧ t.errAcc = s.errAcc ∧
      t.bsPos.toNat = s.bsPos.toNat + bs.length ∧
      t.record s.mArg = { (layerItems s a r).2 with done := true } ∧
      s.Results t ((bs.length : Int) :: (layerItems s a r).2.report)

/-- 45 R361, R362: what MB_DECODE leaves in the output planes: in macroblock m's views the reconstruction of its
record, and elsewhere what was there. -/
def Obligations.MbDecodeReconstructs : Prop :=
  ∀ s t : State, s.GridOk → s.StoreOk → exec .mbDecode s = .next t → t.status = 0 →
    let m := s.mArg
    let r := t.record m
    let qp := r.qp.toNat
    let qpc := qpcSpec s.cfg r.qp.toInt
    let dcY := fun i j => dcInv4Spec qp (sandwich hMat (mat4 r.dcY) i j)
    let luma := fun b => let d := fun i j => dequantSpec qp i j (vecInt (r.coef .luma b) (4 * i + j))
      coreInvSpec (if r.intra then withDc d (dcY (lumaBy b) (lumaBx b)) else d)
    let chroma := fun (c : Comp) b => let d := fun i j => dequantSpec qpc i j (vecInt (r.coef c b) (4 * i + j))
      coreInvSpec (withDc d (dcInv2Spec qpc (sandwich2 h2Mat (fun i j => vecInt (r.dcc c) (2 * i + j)) (b / 2) (b % 2))))
    (∀ i < 16, ∀ j < 16, (t.poutAt .y (16 * (m / s.gridW.toNat) + i) (16 * (m % s.gridW.toNat) + j)).toInt =
      luma (blkAt (j / 4) (i / 4)) (i % 4) (j % 4)) ∧
    (∀ c ∈ [Comp.cb, .cr], ∀ i < 8, ∀ j < 8,
      (t.poutAt c.plane (8 * (m / s.gridW.toNat) + i) (8 * (m % s.gridW.toNat) + j)).toInt =
        chroma c (2 * (i / 4) + j / 4) (i % 4) (j % 4)) ∧
    (∀ p row col, inPlane s.cfg p row col = true → ¬ s.InView m p row col → t.poutAt p row col = s.poutAt p row col)

/-- 45 R362; 60 R411; 45 R377: a macroblock command changes no other macroblock's record, MB_DECODE no output element
outside its macroblock's views, and MB_ENCODE no output element at all, whether it completes or not. -/
def Obligations.MacroblockCommandsKeepOthers : Prop :=
  ∀ (i : Instr) (s t : State), i ∈ [.mbEncode, .mbDecode] → s.GridOk → exec i s = .next t →
    (∀ n, n ≠ s.mArg → t.record n = s.record n) ∧
    t.mbs.length = s.mbs.length ∧
    (∀ p row col, inPlane s.cfg p row col = true → (i = .mbEncode ∨ ¬ s.InView s.mArg p row col) →
      t.poutAt p row col = s.poutAt p row col) ∧
    t.cb = s.cb ∧ t.tb = s.tb ∧ t.dcb = s.dcb ∧ t.bsBase = s.bsBase ∧ t.bsLen = s.bsLen ∧
    t.gridW = s.gridW ∧ t.gridH = s.gridH ∧ t.gridValid = s.gridValid

/-- 45 R376, R377 and 95 T6's checks: the bits MB_ENCODE writes, decoded at the same position, give back the same
record and results. -/
def Obligations.MbRoundTrip : Prop :=
  ∀ s t : State, s.Inv → s.SmallSamples s.mArg → exec .mbEncode s = .next t → t.status = 0 →
    ∃ u, exec .mbDecode { s with bsbuf := t.bsbuf } = .next u ∧ u.status = 0 ∧ u.bsPos = t.bsPos ∧
      u.bsbuf = t.bsbuf ∧ u.res = t.res ∧ u.mbs = t.mbs

/-- 45 R339; 60 R408: an error of the coding phase is MbFailure with that error in CAUSE; bit 9 of ERRACC is set and no
other bit is; DONE is 0, so that coding the next macroblock is an OrderViolation. The causes of a stream: StreamOverflow
where MB_ENCODE, and StreamExhausted where MB_DECODE, would complete on a longer stream. The causes of what MB_DECODE
reads first (45 R329, R334, R336, R360): no mb_type, an unlisted mb_type, one out of scope, an intra_chroma_pred_mode
above 3, an mb_qp_delta outside [-26, 25]. -/
def Obligations.MbFailureContained : Prop :=
  (∀ (i : Instr) (s t : State), exec i s = .next t → statusErr t.status = 9 →
    i ∈ [.mbEncode, .mbDecode] ∧
    (∃ e : Err, t.status = BitVec.ofNat 32 (9 + 256 * e.code)) ∧ t.errAcc = s.errAcc ||| 0x200#32 ∧
    (t.record s.mArg).done = false ∧ (∀ n, n ≠ s.mArg → t.record n = s.record n) ∧
    (∀ (i' : Instr) (arg : Vec16), let u := { t with arg := arg }
      u.argInt 0 = s.argInt 0 + 1 → u.OnGrid → (u.argInt 2 = 0 ∨ u.argInt 2 = 2) →
      (i' = .mbEncode ∧ u.EncodeOperandsOk ∨ i' = .mbDecode ∧ 0 ≤ u.argInt 9 ∧ u.argInt 9 ≤ 51) →
      exec i' u = .next (u.endsClean 10))) ∧
  (∀ (s t : State) (len : Word), t.status = 0 → len.toNat < t.bsPos.toNat →
    (exec .mbEncode s = .next t → Ends .mbEncode { s with bsLen := len } 0x409) ∧
    (exec .mbDecode s = .next t → Ends .mbDecode { s with bsLen := len } 0x309)) ∧
  (∀ s : State, s.DecodeReady →
    (s.UeCutShort → Ends .mbDecode s 0x309) ∧
    (s.Holds (List.replicate 16 false) → Ends .mbDecode s 0x109) ∧
    (∀ v : Nat, v ≤ 65534 →
      let u : Int := if s.argInt 2 = 0 then (v : Int) - 6 else (v : Int) - 1
      (24 < u → s.Holds (ueBits v) → Ends .mbDecode s 0x109) ∧
      (s.argInt 2 = 0 ∧ 1 ≤ v ∧ v ≤ 5 ∨ s.argInt 2 = 2 ∧ v = 0 ∨ u = 24 → s.Holds (ueBits v) → Ends .mbDecode s 0x609) ∧
      (0 ≤ u → u ≤ 23 → ∀ c : Nat, c ≤ 65534 →
        (3 < c → s.Holds (ueBits v ++ ueBits c) → Ends .mbDecode s 0x109) ∧
        (c ≤ 3 → ∀ k : Nat, k ≤ 65534 → (k = 51 ∨ 53 ≤ k) → s.Holds (ueBits v ++ ueBits c ++ ueBits k) →
          Ends .mbDecode s 0x209))))

/-! ### The machine as a whole -/

/-- The invariant every step keeps: 10 R26 (cursor), R34 to R37 (memories in canonical form and within their size,
legal records), R28 (grid), R22 and R23 (STATUS and ERRACC). -/
def Obligations.StepKeepsInv : Prop := ∀ s t : State, s.Inv → step s = .next t → t.Inv

/-- The invariant holds after reset, for every legal choice of the parameters. -/
def Obligations.ResetMeetsInv : Prop :=
  State.reset.Inv ∧ ∀ c : Config, c.wf = true → (State.resetOf c).Inv

/-- 70 R440, R442: what the spec says reset leaves, at power-on and when the host resets the core; the parameters
stay. -/
def Obligations.ResetValues : Prop :=
  let zero : State → Prop := fun s =>
    s.cmd = 0 ∧ s.status = 0 ∧ s.errAcc = 0 ∧ s.bsBase = 0 ∧ s.bsLen = 0 ∧ s.bsPos = 0 ∧ s.gridW = 0 ∧ s.gridH = 0 ∧
    s.gridValid = false
  zero State.reset ∧
  ∀ (s : State) (rest : List HostAccess), s.pending = .reset :: rest →
    ∃ t, step s = .next t ∧ zero t ∧ t.cfg = s.cfg ∧ t.pending = rest

/-- 20 R79, R83: a host read has no effect but on what the host reads; a host write to a location it may write is what
the next read of that location returns, and no other location changes; a host write to any other location is
ignored. -/
def Obligations.HostAccesses : Prop :=
  ∀ (s : State) (l : Loc) (v old : Word) (rest : List HostAccess), s.hostRead l = some old →
    (s.pending = .read l l.size :: rest → step s = .next { s with pending := rest, hostData := old }) ∧
    (s.pending = .write l l.size v :: rest →
      (match l with
        | .cmd => True
        | .arg _ | .cb _ | .tb _ | .dcb _ | .bsbuf _ | .pin .. | .pout .. =>
          ∃ t, step s = .next t ∧ t.pending = rest ∧ t.hostData = s.hostData ∧
            t.hostRead l = some (match l with
              | .bsbuf _ => v &&& 0xFF#32
              | _ => v) ∧
            ∀ l', l' ≠ l → t.hostRead l' = s.hostRead l'
        | .status | .errAcc | .res _ | .bsBase | .bsLen | .bsPos | .gridW | .gridH | .gridValid | .mbs .. =>
          step s = .next { s with pending := rest }))

/-- 20 R78; 93 I9; 60 R435 (and the model's own idle step and fault, log 4, log 7): an access of a shape its location
does not have is refused, one to a location that does not exist faults, and with no access to come the core holds its
state. -/
def Obligations.HostStopsAndIdle : Prop :=
  ∀ s : State,
    (s.pending = [] → step s = .next s) ∧
    (∀ (a : HostAccess) (rest : List HostAccess), s.pending = a :: rest →
      (a.wellFormed = false → step s = .refused (.hostAccess a)) ∧
      (∀ l, a = .read l l.size ∨ (∃ v, a = .write l l.size v) → s.hostRead l = none →
        step s = .fault (.noSuchLocation l)))
end

