-- ==== Sys2Proof/Laws/State.lean ====
section
/-! SUPPORT. One lemma per field per update of State: what the update leaves in it. -/

namespace Sys2Proof.Machine

variable (s : State)

/-! ### State.endCommand -/

@[simp] theorem State.endCommand_cfg (e c : Nat) : (s.endCommand e c).cfg = s.cfg := rfl
@[simp] theorem State.endCommand_cmd (e c : Nat) : (s.endCommand e c).cmd = s.cmd := rfl
@[simp] theorem State.endCommand_status (e c : Nat) : (s.endCommand e c).status = statusWord e c := rfl
@[simp] theorem State.endCommand_errAcc (e c : Nat) : (s.endCommand e c).errAcc = accumulate s.errAcc e := rfl
@[simp] theorem State.endCommand_arg (e c : Nat) : (s.endCommand e c).arg = s.arg := rfl
@[simp] theorem State.endCommand_res (e c : Nat) : (s.endCommand e c).res = s.res := rfl
@[simp] theorem State.endCommand_bsBase (e c : Nat) : (s.endCommand e c).bsBase = s.bsBase := rfl
@[simp] theorem State.endCommand_bsLen (e c : Nat) : (s.endCommand e c).bsLen = s.bsLen := rfl
@[simp] theorem State.endCommand_bsPos (e c : Nat) : (s.endCommand e c).bsPos = s.bsPos := rfl
@[simp] theorem State.endCommand_gridW (e c : Nat) : (s.endCommand e c).gridW = s.gridW := rfl
@[simp] theorem State.endCommand_gridH (e c : Nat) : (s.endCommand e c).gridH = s.gridH := rfl
@[simp] theorem State.endCommand_gridValid (e c : Nat) : (s.endCommand e c).gridValid = s.gridValid := rfl
@[simp] theorem State.endCommand_cb (e c : Nat) : (s.endCommand e c).cb = s.cb := rfl
@[simp] theorem State.endCommand_tb (e c : Nat) : (s.endCommand e c).tb = s.tb := rfl
@[simp] theorem State.endCommand_dcb (e c : Nat) : (s.endCommand e c).dcb = s.dcb := rfl
@[simp] theorem State.endCommand_bsbuf (e c : Nat) : (s.endCommand e c).bsbuf = s.bsbuf := rfl
@[simp] theorem State.endCommand_pinY (e c : Nat) : (s.endCommand e c).pinY = s.pinY := rfl
@[simp] theorem State.endCommand_pinCb (e c : Nat) : (s.endCommand e c).pinCb = s.pinCb := rfl
@[simp] theorem State.endCommand_pinCr (e c : Nat) : (s.endCommand e c).pinCr = s.pinCr := rfl
@[simp] theorem State.endCommand_poutY (e c : Nat) : (s.endCommand e c).poutY = s.poutY := rfl
@[simp] theorem State.endCommand_poutCb (e c : Nat) : (s.endCommand e c).poutCb = s.poutCb := rfl
@[simp] theorem State.endCommand_poutCr (e c : Nat) : (s.endCommand e c).poutCr = s.poutCr := rfl
@[simp] theorem State.endCommand_mbs (e c : Nat) : (s.endCommand e c).mbs = s.mbs := rfl
@[simp] theorem State.endCommand_pending (e c : Nat) : (s.endCommand e c).pending = s.pending := rfl
@[simp] theorem State.endCommand_hostData (e c : Nat) : (s.endCommand e c).hostData = s.hostData := rfl
@[simp] theorem State.endCommand_draws (e c : Nat) : (s.endCommand e c).draws = s.draws := rfl
@[simp] theorem State.endCommand_getArg (e c : Nat) (k : Nat) : (s.endCommand e c).getArg k = s.getArg k := rfl
@[simp] theorem State.endCommand_argInt (e c : Nat) (k : Nat) : (s.endCommand e c).argInt k = s.argInt k := rfl
@[simp] theorem State.endCommand_getRes (e c : Nat) (k : Nat) : (s.endCommand e c).getRes k = s.getRes k := rfl
@[simp] theorem State.endCommand_stream (e c : Nat) : (s.endCommand e c).stream = s.stream := rfl

/-! ### State.setRes -/

@[simp] theorem State.setRes_cfg (i : Nat) (w : Word) : (s.setRes i w).cfg = s.cfg := rfl
@[simp] theorem State.setRes_cmd (i : Nat) (w : Word) : (s.setRes i w).cmd = s.cmd := rfl
@[simp] theorem State.setRes_status (i : Nat) (w : Word) : (s.setRes i w).status = s.status := rfl
@[simp] theorem State.setRes_errAcc (i : Nat) (w : Word) : (s.setRes i w).errAcc = s.errAcc := rfl
@[simp] theorem State.setRes_arg (i : Nat) (w : Word) : (s.setRes i w).arg = s.arg := rfl
@[simp] theorem State.setRes_res (i : Nat) (w : Word) : (s.setRes i w).res = s.res.setIfInBounds i w := rfl
@[simp] theorem State.setRes_bsBase (i : Nat) (w : Word) : (s.setRes i w).bsBase = s.bsBase := rfl
@[simp] theorem State.setRes_bsLen (i : Nat) (w : Word) : (s.setRes i w).bsLen = s.bsLen := rfl
@[simp] theorem State.setRes_bsPos (i : Nat) (w : Word) : (s.setRes i w).bsPos = s.bsPos := rfl
@[simp] theorem State.setRes_gridW (i : Nat) (w : Word) : (s.setRes i w).gridW = s.gridW := rfl
@[simp] theorem State.setRes_gridH (i : Nat) (w : Word) : (s.setRes i w).gridH = s.gridH := rfl
@[simp] theorem State.setRes_gridValid (i : Nat) (w : Word) : (s.setRes i w).gridValid = s.gridValid := rfl
@[simp] theorem State.setRes_cb (i : Nat) (w : Word) : (s.setRes i w).cb = s.cb := rfl
@[simp] theorem State.setRes_tb (i : Nat) (w : Word) : (s.setRes i w).tb = s.tb := rfl
@[simp] theorem State.setRes_dcb (i : Nat) (w : Word) : (s.setRes i w).dcb = s.dcb := rfl
@[simp] theorem State.setRes_bsbuf (i : Nat) (w : Word) : (s.setRes i w).bsbuf = s.bsbuf := rfl
@[simp] theorem State.setRes_pinY (i : Nat) (w : Word) : (s.setRes i w).pinY = s.pinY := rfl
@[simp] theorem State.setRes_pinCb (i : Nat) (w : Word) : (s.setRes i w).pinCb = s.pinCb := rfl
@[simp] theorem State.setRes_pinCr (i : Nat) (w : Word) : (s.setRes i w).pinCr = s.pinCr := rfl
@[simp] theorem State.setRes_poutY (i : Nat) (w : Word) : (s.setRes i w).poutY = s.poutY := rfl
@[simp] theorem State.setRes_poutCb (i : Nat) (w : Word) : (s.setRes i w).poutCb = s.poutCb := rfl
@[simp] theorem State.setRes_poutCr (i : Nat) (w : Word) : (s.setRes i w).poutCr = s.poutCr := rfl
@[simp] theorem State.setRes_mbs (i : Nat) (w : Word) : (s.setRes i w).mbs = s.mbs := rfl
@[simp] theorem State.setRes_pending (i : Nat) (w : Word) : (s.setRes i w).pending = s.pending := rfl
@[simp] theorem State.setRes_hostData (i : Nat) (w : Word) : (s.setRes i w).hostData = s.hostData := rfl
@[simp] theorem State.setRes_draws (i : Nat) (w : Word) : (s.setRes i w).draws = s.draws := rfl
@[simp] theorem State.setRes_getArg (i : Nat) (w : Word) (k : Nat) : (s.setRes i w).getArg k = s.getArg k := rfl
@[simp] theorem State.setRes_argInt (i : Nat) (w : Word) (k : Nat) : (s.setRes i w).argInt k = s.argInt k := rfl
@[simp] theorem State.setRes_stream (i : Nat) (w : Word) : (s.setRes i w).stream = s.stream := rfl

/-! ### State.setResInt -/

@[simp] theorem State.setResInt_cfg (i : Nat) (v : Int) : (s.setResInt i v).cfg = s.cfg := rfl
@[simp] theorem State.setResInt_cmd (i : Nat) (v : Int) : (s.setResInt i v).cmd = s.cmd := rfl
@[simp] theorem State.setResInt_status (i : Nat) (v : Int) : (s.setResInt i v).status = s.status := rfl
@[simp] theorem State.setResInt_errAcc (i : Nat) (v : Int) : (s.setResInt i v).errAcc = s.errAcc := rfl
@[simp] theorem State.setResInt_arg (i : Nat) (v : Int) : (s.setResInt i v).arg = s.arg := rfl
@[simp] theorem State.setResInt_res (i : Nat) (v : Int) : (s.setResInt i v).res = s.res.setIfInBounds i (BitVec.ofInt 32 v) := rfl
@[simp] theorem State.setResInt_bsBase (i : Nat) (v : Int) : (s.setResInt i v).bsBase = s.bsBase := rfl
@[simp] theorem State.setResInt_bsLen (i : Nat) (v : Int) : (s.setResInt i v).bsLen = s.bsLen := rfl
@[simp] theorem State.setResInt_bsPos (i : Nat) (v : Int) : (s.setResInt i v).bsPos = s.bsPos := rfl
@[simp] theorem State.setResInt_gridW (i : Nat) (v : Int) : (s.setResInt i v).gridW = s.gridW := rfl
@[simp] theorem State.setResInt_gridH (i : Nat) (v : Int) : (s.setResInt i v).gridH = s.gridH := rfl
@[simp] theorem State.setResInt_gridValid (i : Nat) (v : Int) : (s.setResInt i v).gridValid = s.gridValid := rfl
@[simp] theorem State.setResInt_cb (i : Nat) (v : Int) : (s.setResInt i v).cb = s.cb := rfl
@[simp] theorem State.setResInt_tb (i : Nat) (v : Int) : (s.setResInt i v).tb = s.tb := rfl
@[simp] theorem State.setResInt_dcb (i : Nat) (v : Int) : (s.setResInt i v).dcb = s.dcb := rfl
@[simp] theorem State.setResInt_bsbuf (i : Nat) (v : Int) : (s.setResInt i v).bsbuf = s.bsbuf := rfl
@[simp] theorem State.setResInt_pinY (i : Nat) (v : Int) : (s.setResInt i v).pinY = s.pinY := rfl
@[simp] theorem State.setResInt_pinCb (i : Nat) (v : Int) : (s.setResInt i v).pinCb = s.pinCb := rfl
@[simp] theorem State.setResInt_pinCr (i : Nat) (v : Int) : (s.setResInt i v).pinCr = s.pinCr := rfl
@[simp] theorem State.setResInt_poutY (i : Nat) (v : Int) : (s.setResInt i v).poutY = s.poutY := rfl
@[simp] theorem State.setResInt_poutCb (i : Nat) (v : Int) : (s.setResInt i v).poutCb = s.poutCb := rfl
@[simp] theorem State.setResInt_poutCr (i : Nat) (v : Int) : (s.setResInt i v).poutCr = s.poutCr := rfl
@[simp] theorem State.setResInt_mbs (i : Nat) (v : Int) : (s.setResInt i v).mbs = s.mbs := rfl
@[simp] theorem State.setResInt_pending (i : Nat) (v : Int) : (s.setResInt i v).pending = s.pending := rfl
@[simp] theorem State.setResInt_hostData (i : Nat) (v : Int) : (s.setResInt i v).hostData = s.hostData := rfl
@[simp] theorem State.setResInt_draws (i : Nat) (v : Int) : (s.setResInt i v).draws = s.draws := rfl
@[simp] theorem State.setResInt_getArg (i : Nat) (v : Int) (k : Nat) : (s.setResInt i v).getArg k = s.getArg k := rfl
@[simp] theorem State.setResInt_argInt (i : Nat) (v : Int) (k : Nat) : (s.setResInt i v).argInt k = s.argInt k := rfl
@[simp] theorem State.setResInt_stream (i : Nat) (v : Int) : (s.setResInt i v).stream = s.stream := rfl

/-! ### State.setStream -/

@[simp] theorem State.setStream_cfg (st : Stream) : (s.setStream st).cfg = s.cfg := rfl
@[simp] theorem State.setStream_cmd (st : Stream) : (s.setStream st).cmd = s.cmd := rfl
@[simp] theorem State.setStream_status (st : Stream) : (s.setStream st).status = s.status := rfl
@[simp] theorem State.setStream_errAcc (st : Stream) : (s.setStream st).errAcc = s.errAcc := rfl
@[simp] theorem State.setStream_arg (st : Stream) : (s.setStream st).arg = s.arg := rfl
@[simp] theorem State.setStream_res (st : Stream) : (s.setStream st).res = s.res := rfl
@[simp] theorem State.setStream_bsBase (st : Stream) : (s.setStream st).bsBase = s.bsBase := rfl
@[simp] theorem State.setStream_bsLen (st : Stream) : (s.setStream st).bsLen = s.bsLen := rfl
@[simp] theorem State.setStream_bsPos (st : Stream) : (s.setStream st).bsPos = BitVec.ofNat 32 st.pos := rfl
@[simp] theorem State.setStream_gridW (st : Stream) : (s.setStream st).gridW = s.gridW := rfl
@[simp] theorem State.setStream_gridH (st : Stream) : (s.setStream st).gridH = s.gridH := rfl
@[simp] theorem State.setStream_gridValid (st : Stream) : (s.setStream st).gridValid = s.gridValid := rfl
@[simp] theorem State.setStream_cb (st : Stream) : (s.setStream st).cb = s.cb := rfl
@[simp] theorem State.setStream_tb (st : Stream) : (s.setStream st).tb = s.tb := rfl
@[simp] theorem State.setStream_dcb (st : Stream) : (s.setStream st).dcb = s.dcb := rfl
@[simp] theorem State.setStream_bsbuf (st : Stream) : (s.setStream st).bsbuf = st.buf := rfl
@[simp] theorem State.setStream_pinY (st : Stream) : (s.setStream st).pinY = s.pinY := rfl
@[simp] theorem State.setStream_pinCb (st : Stream) : (s.setStream st).pinCb = s.pinCb := rfl
@[simp] theorem State.setStream_pinCr (st : Stream) : (s.setStream st).pinCr = s.pinCr := rfl
@[simp] theorem State.setStream_poutY (st : Stream) : (s.setStream st).poutY = s.poutY := rfl
@[simp] theorem State.setStream_poutCb (st : Stream) : (s.setStream st).poutCb = s.poutCb := rfl
@[simp] theorem State.setStream_poutCr (st : Stream) : (s.setStream st).poutCr = s.poutCr := rfl
@[simp] theorem State.setStream_mbs (st : Stream) : (s.setStream st).mbs = s.mbs := rfl
@[simp] theorem State.setStream_pending (st : Stream) : (s.setStream st).pending = s.pending := rfl
@[simp] theorem State.setStream_hostData (st : Stream) : (s.setStream st).hostData = s.hostData := rfl
@[simp] theorem State.setStream_draws (st : Stream) : (s.setStream st).draws = s.draws := rfl
@[simp] theorem State.setStream_getArg (st : Stream) (k : Nat) : (s.setStream st).getArg k = s.getArg k := rfl
@[simp] theorem State.setStream_argInt (st : Stream) (k : Nat) : (s.setStream st).argInt k = s.argInt k := rfl
@[simp] theorem State.setStream_getRes (st : Stream) (k : Nat) : (s.setStream st).getRes k = s.getRes k := rfl

/-! ### State.setRecord -/

@[simp] theorem State.setRecord_cfg (m : Nat) (r : MbRecord) : (s.setRecord m r).cfg = s.cfg := rfl
@[simp] theorem State.setRecord_cmd (m : Nat) (r : MbRecord) : (s.setRecord m r).cmd = s.cmd := rfl
@[simp] theorem State.setRecord_status (m : Nat) (r : MbRecord) : (s.setRecord m r).status = s.status := rfl
@[simp] theorem State.setRecord_errAcc (m : Nat) (r : MbRecord) : (s.setRecord m r).errAcc = s.errAcc := rfl
@[simp] theorem State.setRecord_arg (m : Nat) (r : MbRecord) : (s.setRecord m r).arg = s.arg := rfl
@[simp] theorem State.setRecord_res (m : Nat) (r : MbRecord) : (s.setRecord m r).res = s.res := rfl
@[simp] theorem State.setRecord_bsBase (m : Nat) (r : MbRecord) : (s.setRecord m r).bsBase = s.bsBase := rfl
@[simp] theorem State.setRecord_bsLen (m : Nat) (r : MbRecord) : (s.setRecord m r).bsLen = s.bsLen := rfl
@[simp] theorem State.setRecord_bsPos (m : Nat) (r : MbRecord) : (s.setRecord m r).bsPos = s.bsPos := rfl
@[simp] theorem State.setRecord_gridW (m : Nat) (r : MbRecord) : (s.setRecord m r).gridW = s.gridW := rfl
@[simp] theorem State.setRecord_gridH (m : Nat) (r : MbRecord) : (s.setRecord m r).gridH = s.gridH := rfl
@[simp] theorem State.setRecord_gridValid (m : Nat) (r : MbRecord) : (s.setRecord m r).gridValid = s.gridValid := rfl
@[simp] theorem State.setRecord_cb (m : Nat) (r : MbRecord) : (s.setRecord m r).cb = s.cb := rfl
@[simp] theorem State.setRecord_tb (m : Nat) (r : MbRecord) : (s.setRecord m r).tb = s.tb := rfl
@[simp] theorem State.setRecord_dcb (m : Nat) (r : MbRecord) : (s.setRecord m r).dcb = s.dcb := rfl
@[simp] theorem State.setRecord_bsbuf (m : Nat) (r : MbRecord) : (s.setRecord m r).bsbuf = s.bsbuf := rfl
@[simp] theorem State.setRecord_pinY (m : Nat) (r : MbRecord) : (s.setRecord m r).pinY = s.pinY := rfl
@[simp] theorem State.setRecord_pinCb (m : Nat) (r : MbRecord) : (s.setRecord m r).pinCb = s.pinCb := rfl
@[simp] theorem State.setRecord_pinCr (m : Nat) (r : MbRecord) : (s.setRecord m r).pinCr = s.pinCr := rfl
@[simp] theorem State.setRecord_poutY (m : Nat) (r : MbRecord) : (s.setRecord m r).poutY = s.poutY := rfl
@[simp] theorem State.setRecord_poutCb (m : Nat) (r : MbRecord) : (s.setRecord m r).poutCb = s.poutCb := rfl
@[simp] theorem State.setRecord_poutCr (m : Nat) (r : MbRecord) : (s.setRecord m r).poutCr = s.poutCr := rfl
@[simp] theorem State.setRecord_mbs (m : Nat) (r : MbRecord) : (s.setRecord m r).mbs = s.mbs.set m r := rfl
@[simp] theorem State.setRecord_pending (m : Nat) (r : MbRecord) : (s.setRecord m r).pending = s.pending := rfl
@[simp] theorem State.setRecord_hostData (m : Nat) (r : MbRecord) : (s.setRecord m r).hostData = s.hostData := rfl
@[simp] theorem State.setRecord_draws (m : Nat) (r : MbRecord) : (s.setRecord m r).draws = s.draws := rfl
@[simp] theorem State.setRecord_getArg (m : Nat) (r : MbRecord) (k : Nat) : (s.setRecord m r).getArg k = s.getArg k := rfl
@[simp] theorem State.setRecord_argInt (m : Nat) (r : MbRecord) (k : Nat) : (s.setRecord m r).argInt k = s.argInt k := rfl
@[simp] theorem State.setRecord_getRes (m : Nat) (r : MbRecord) (k : Nat) : (s.setRecord m r).getRes k = s.getRes k := rfl
@[simp] theorem State.setRecord_stream (m : Nat) (r : MbRecord) : (s.setRecord m r).stream = s.stream := rfl

/-! ### State.setPin -/

@[simp] theorem State.setPin_cfg (p : Plane) (m : ElemMem) : (s.setPin p m).cfg = s.cfg := by cases p <;> rfl
@[simp] theorem State.setPin_cmd (p : Plane) (m : ElemMem) : (s.setPin p m).cmd = s.cmd := by cases p <;> rfl
@[simp] theorem State.setPin_status (p : Plane) (m : ElemMem) : (s.setPin p m).status = s.status := by cases p <;> rfl
@[simp] theorem State.setPin_errAcc (p : Plane) (m : ElemMem) : (s.setPin p m).errAcc = s.errAcc := by cases p <;> rfl
@[simp] theorem State.setPin_arg (p : Plane) (m : ElemMem) : (s.setPin p m).arg = s.arg := by cases p <;> rfl
@[simp] theorem State.setPin_res (p : Plane) (m : ElemMem) : (s.setPin p m).res = s.res := by cases p <;> rfl
@[simp] theorem State.setPin_bsBase (p : Plane) (m : ElemMem) : (s.setPin p m).bsBase = s.bsBase := by cases p <;> rfl
@[simp] theorem State.setPin_bsLen (p : Plane) (m : ElemMem) : (s.setPin p m).bsLen = s.bsLen := by cases p <;> rfl
@[simp] theorem State.setPin_bsPos (p : Plane) (m : ElemMem) : (s.setPin p m).bsPos = s.bsPos := by cases p <;> rfl
@[simp] theorem State.setPin_gridW (p : Plane) (m : ElemMem) : (s.setPin p m).gridW = s.gridW := by cases p <;> rfl
@[simp] theorem State.setPin_gridH (p : Plane) (m : ElemMem) : (s.setPin p m).gridH = s.gridH := by cases p <;> rfl
@[simp] theorem State.setPin_gridValid (p : Plane) (m : ElemMem) : (s.setPin p m).gridValid = s.gridValid := by cases p <;> rfl
@[simp] theorem State.setPin_cb (p : Plane) (m : ElemMem) : (s.setPin p m).cb = s.cb := by cases p <;> rfl
@[simp] theorem State.setPin_tb (p : Plane) (m : ElemMem) : (s.setPin p m).tb = s.tb := by cases p <;> rfl
@[simp] theorem State.setPin_dcb (p : Plane) (m : ElemMem) : (s.setPin p m).dcb = s.dcb := by cases p <;> rfl
@[simp] theorem State.setPin_bsbuf (p : Plane) (m : ElemMem) : (s.setPin p m).bsbuf = s.bsbuf := by cases p <;> rfl
@[simp] theorem State.setPin_poutY (p : Plane) (m : ElemMem) : (s.setPin p m).poutY = s.poutY := by cases p <;> rfl
@[simp] theorem State.setPin_poutCb (p : Plane) (m : ElemMem) : (s.setPin p m).poutCb = s.poutCb := by cases p <;> rfl
@[simp] theorem State.setPin_poutCr (p : Plane) (m : ElemMem) : (s.setPin p m).poutCr = s.poutCr := by cases p <;> rfl
@[simp] theorem State.setPin_mbs (p : Plane) (m : ElemMem) : (s.setPin p m).mbs = s.mbs := by cases p <;> rfl
@[simp] theorem State.setPin_pending (p : Plane) (m : ElemMem) : (s.setPin p m).pending = s.pending := by cases p <;> rfl
@[simp] theorem State.setPin_hostData (p : Plane) (m : ElemMem) : (s.setPin p m).hostData = s.hostData := by cases p <;> rfl
@[simp] theorem State.setPin_draws (p : Plane) (m : ElemMem) : (s.setPin p m).draws = s.draws := by cases p <;> rfl
@[simp] theorem State.setPin_getArg (p : Plane) (m : ElemMem) (k : Nat) : (s.setPin p m).getArg k = s.getArg k := by cases p <;> rfl
@[simp] theorem State.setPin_argInt (p : Plane) (m : ElemMem) (k : Nat) : (s.setPin p m).argInt k = s.argInt k := by cases p <;> rfl
@[simp] theorem State.setPin_getRes (p : Plane) (m : ElemMem) (k : Nat) : (s.setPin p m).getRes k = s.getRes k := by cases p <;> rfl
@[simp] theorem State.setPin_stream (p : Plane) (m : ElemMem) : (s.setPin p m).stream = s.stream := by cases p <;> rfl

/-! ### State.setPout -/

@[simp] theorem State.setPout_cfg (p : Plane) (m : ElemMem) : (s.setPout p m).cfg = s.cfg := by cases p <;> rfl
@[simp] theorem State.setPout_cmd (p : Plane) (m : ElemMem) : (s.setPout p m).cmd = s.cmd := by cases p <;> rfl
@[simp] theorem State.setPout_status (p : Plane) (m : ElemMem) : (s.setPout p m).status = s.status := by cases p <;> rfl
@[simp] theorem State.setPout_errAcc (p : Plane) (m : ElemMem) : (s.setPout p m).errAcc = s.errAcc := by cases p <;> rfl
@[simp] theorem State.setPout_arg (p : Plane) (m : ElemMem) : (s.setPout p m).arg = s.arg := by cases p <;> rfl
@[simp] theorem State.setPout_res (p : Plane) (m : ElemMem) : (s.setPout p m).res = s.res := by cases p <;> rfl
@[simp] theorem State.setPout_bsBase (p : Plane) (m : ElemMem) : (s.setPout p m).bsBase = s.bsBase := by cases p <;> rfl
@[simp] theorem State.setPout_bsLen (p : Plane) (m : ElemMem) : (s.setPout p m).bsLen = s.bsLen := by cases p <;> rfl
@[simp] theorem State.setPout_bsPos (p : Plane) (m : ElemMem) : (s.setPout p m).bsPos = s.bsPos := by cases p <;> rfl
@[simp] theorem State.setPout_gridW (p : Plane) (m : ElemMem) : (s.setPout p m).gridW = s.gridW := by cases p <;> rfl
@[simp] theorem State.setPout_gridH (p : Plane) (m : ElemMem) : (s.setPout p m).gridH = s.gridH := by cases p <;> rfl
@[simp] theorem State.setPout_gridValid (p : Plane) (m : ElemMem) : (s.setPout p m).gridValid = s.gridValid := by cases p <;> rfl
@[simp] theorem State.setPout_cb (p : Plane) (m : ElemMem) : (s.setPout p m).cb = s.cb := by cases p <;> rfl
@[simp] theorem State.setPout_tb (p : Plane) (m : ElemMem) : (s.setPout p m).tb = s.tb := by cases p <;> rfl
@[simp] theorem State.setPout_dcb (p : Plane) (m : ElemMem) : (s.setPout p m).dcb = s.dcb := by cases p <;> rfl
@[simp] theorem State.setPout_bsbuf (p : Plane) (m : ElemMem) : (s.setPout p m).bsbuf = s.bsbuf := by cases p <;> rfl
@[simp] theorem State.setPout_pinY (p : Plane) (m : ElemMem) : (s.setPout p m).pinY = s.pinY := by cases p <;> rfl
@[simp] theorem State.setPout_pinCb (p : Plane) (m : ElemMem) : (s.setPout p m).pinCb = s.pinCb := by cases p <;> rfl
@[simp] theorem State.setPout_pinCr (p : Plane) (m : ElemMem) : (s.setPout p m).pinCr = s.pinCr := by cases p <;> rfl
@[simp] theorem State.setPout_mbs (p : Plane) (m : ElemMem) : (s.setPout p m).mbs = s.mbs := by cases p <;> rfl
@[simp] theorem State.setPout_pending (p : Plane) (m : ElemMem) : (s.setPout p m).pending = s.pending := by cases p <;> rfl
@[simp] theorem State.setPout_hostData (p : Plane) (m : ElemMem) : (s.setPout p m).hostData = s.hostData := by cases p <;> rfl
@[simp] theorem State.setPout_draws (p : Plane) (m : ElemMem) : (s.setPout p m).draws = s.draws := by cases p <;> rfl
@[simp] theorem State.setPout_getArg (p : Plane) (m : ElemMem) (k : Nat) : (s.setPout p m).getArg k = s.getArg k := by cases p <;> rfl
@[simp] theorem State.setPout_argInt (p : Plane) (m : ElemMem) (k : Nat) : (s.setPout p m).argInt k = s.argInt k := by cases p <;> rfl
@[simp] theorem State.setPout_getRes (p : Plane) (m : ElemMem) (k : Nat) : (s.setPout p m).getRes k = s.getRes k := by cases p <;> rfl
@[simp] theorem State.setPout_stream (p : Plane) (m : ElemMem) : (s.setPout p m).stream = s.stream := by cases p <;> rfl

/-! ### The planes through the plane updates -/

theorem State.setPin_pin (p q : Plane) (m : ElemMem) : (s.setPin p m).pin q = if q = p then m else s.pin q := by
  cases p <;> cases q <;> rfl

theorem State.setPout_pout (p q : Plane) (m : ElemMem) : (s.setPout p m).pout q = if q = p then m else s.pout q := by
  cases p <;> cases q <;> rfl

@[simp] theorem State.setPin_pout (p q : Plane) (m : ElemMem) : (s.setPin p m).pout q = s.pout q := by
  cases p <;> cases q <;> rfl

@[simp] theorem State.setPout_pin (p q : Plane) (m : ElemMem) : (s.setPout p m).pin q = s.pin q := by
  cases p <;> cases q <;> rfl

/-! ### The ends of a command -/

theorem State.succeed_eq : s.succeed = { s with status := 0 } := rfl

theorem State.fail_eq (e : Err) :
    s.fail e = { s with status := BitVec.ofNat 32 e.code, errAcc := s.errAcc ||| BitVec.ofNat 32 (2 ^ e.code) } := by
  cases e <;> rfl

theorem State.failMb_eq (e : Err) :
    s.failMb e = { s with status := BitVec.ofNat 32 (9 + 256 * e.code), errAcc := s.errAcc ||| 0x200#32 } := by
  cases e <;> rfl

/-! ### The result registers -/

theorem vec_getD_setIfInBounds {n : Nat} (v : Vector Word n) (i j : Nat) (w : Word) :
    (v.setIfInBounds i w).getD j 0 = if j = i ∧ i < n then w else v.getD j 0 := by
  by_cases hj : j < n
  · by_cases h : j = i
    · subst h; simp [Vector.getD, hj]
    · simp [Vector.getD, hj, h, Ne.symm h]
  · rw [if_neg (by omega)]
    simp [Vector.getD, hj]

theorem State.setRes_getRes (i j : Nat) (w : Word) :
    (s.setRes i w).getRes j = if j = i ∧ i < 16 then w else s.getRes j :=
  vec_getD_setIfInBounds s.res i j w

theorem State.setResInt_getRes (i j : Nat) (v : Int) :
    (s.setResInt i v).getRes j = if j = i ∧ i < 16 then BitVec.ofInt 32 v else s.getRes j :=
  s.setRes_getRes i j _

/-- A list of results changes RES alone. -/
theorem State.setResList_eq (i : Nat) (vs : List Int) : s.setResList i vs = { s with res := (s.setResList i vs).res } := by
  induction vs generalizing s i with
  | nil => rfl
  | cons v vs ih =>
    have := ih (s.setResInt i v) (i + 1)
    simpa [State.setResList, State.setResInt, State.setRes] using this

/-- What a list of results leaves in each RES register. -/
theorem State.setResList_getRes (i : Nat) (vs : List Int) (j : Nat) (hj : j < 16) :
    (s.setResList i vs).getRes j =
      if i ≤ j ∧ j < i + vs.length then BitVec.ofInt 32 (vs.getD (j - i) 0) else s.getRes j := by
  induction vs generalizing s i with
  | nil =>
    rw [if_neg (by simp only [List.length_nil]; omega)]
    rfl
  | cons v vs ih =>
    rw [State.setResList, ih, State.setResInt_getRes]
    by_cases h1 : i + 1 ≤ j ∧ j < i + 1 + vs.length
    · have h2 : i ≤ j ∧ j < i + (v :: vs).length := by simp only [List.length_cons]; omega
      have h3 : j - i = (j - (i + 1)) + 1 := by omega
      rw [if_pos h1, if_pos h2, h3]
      rfl
    · rw [if_neg h1]
      by_cases h2 : j = i
      · subst h2
        rw [if_pos ⟨rfl, hj⟩, if_pos (by simp only [List.length_cons]; omega)]
        simp
      · rw [if_neg (by omega), if_neg (by simp only [List.length_cons]; omega)]

end Sys2Proof.Machine
end

