-- ==== Sys2Proof/Laws/Memory.lean ====
section
/-! SUPPORT. The sparse memories: a read after a write, writes leave other elements alone, every operation keeps the
canonical form, and equal reads mean equal data. -/

namespace Sys2Proof.Machine

variable {w : Nat}

theorem memRead_memErase_same (m : List (Nat × BitVec w)) (a : Nat) : memRead (memErase m a) a = 0#w := by
  induction m with
  | nil => rfl
  | cons c t ih =>
    obtain ⟨k, v⟩ := c
    by_cases h : k = a <;> simp [memErase, memRead, h, ih]

theorem memRead_memErase_other (m : List (Nat × BitVec w)) {a b : Nat} (h : b ≠ a) :
    memRead (memErase m a) b = memRead m b := by
  induction m with
  | nil => rfl
  | cons c t ih =>
    obtain ⟨k, v⟩ := c
    by_cases hk : k = a
    · subst hk
      simp [memErase, memRead, ih, Ne.symm h]
    · simp [memErase, memRead, hk, ih]

theorem memRead_memInsert_other (m : List (Nat × BitVec w)) {a b : Nat} (x : BitVec w) (h : b ≠ a) :
    memRead (memInsert m a x) b = memRead m b := by
  induction m with
  | nil => simp [memInsert, memRead, Ne.symm h]
  | cons c t ih =>
    obtain ⟨k, v⟩ := c
    by_cases hk : a < k
    · simp [memInsert, memRead, hk, Ne.symm h]
    · simp [memInsert, memRead, hk, ih]

theorem memRead_memInsert_same (m : List (Nat × BitVec w)) (a : Nat) (x : BitVec w) :
    memRead (memInsert (memErase m a) a x) a = x := by
  induction m with
  | nil => simp [memErase, memInsert, memRead]
  | cons c t ih =>
    obtain ⟨k, v⟩ := c
    by_cases hk : k = a
    · simpa [memErase, hk] using ih
    · by_cases hl : a < k
      · simp [memErase, hk, memInsert, hl, memRead]
      · simp [memErase, hk, memInsert, hl, memRead, ih]

/-- A read of the element just written. -/
theorem memRead_memWrite_same (m : List (Nat × BitVec w)) (a : Nat) (x : BitVec w) :
    memRead (memWrite m a x) a = x := by
  by_cases h : x = 0#w
  · simp [memWrite, h, memRead_memErase_same]
  · simp [memWrite, h, memRead_memInsert_same]

/-- A read of any other element. -/
theorem memRead_memWrite_other (m : List (Nat × BitVec w)) {a b : Nat} (x : BitVec w) (h : b ≠ a) :
    memRead (memWrite m a x) b = memRead m b := by
  by_cases hx : x = 0#w
  · simp [memWrite, hx, memRead_memErase_other m h]
  · simp [memWrite, hx, memRead_memInsert_other _ x h, memRead_memErase_other m h]

theorem memRead_memWrite (m : List (Nat × BitVec w)) (a b : Nat) (x : BitVec w) :
    memRead (memWrite m a x) b = if b = a then x else memRead m b := by
  by_cases h : b = a
  · subst h; simp [memRead_memWrite_same]
  · simp [h, memRead_memWrite_other m x h]

/-! ### The canonical form -/

/-- The form in terms of membership. -/
theorem memWf_cons (size k : Nat) (v : BitVec w) (t : List (Nat × BitVec w)) :
    memWf size ((k, v) :: t) = true ↔ k < size ∧ v ≠ 0#w ∧ (∀ c ∈ t, k < c.1) ∧ memWf size t = true := by
  simp [memWf, and_assoc]

theorem mem_of_mem_memErase {m : List (Nat × BitVec w)} {a : Nat} {c : Nat × BitVec w} (h : c ∈ memErase m a) :
    c ∈ m := by
  induction m with
  | nil => simp [memErase] at h
  | cons d t ih =>
    obtain ⟨k, v⟩ := d
    by_cases hk : k = a
    · simp only [memErase, hk, ↓reduceIte] at h
      exact List.mem_cons_of_mem _ (ih h)
    · simp only [memErase, hk, ↓reduceIte, List.mem_cons] at h
      rcases h with h | h
      · simp [h]
      · exact List.mem_cons_of_mem _ (ih h)

theorem mem_memInsert {m : List (Nat × BitVec w)} {a : Nat} {x : BitVec w} {c : Nat × BitVec w}
    (h : c ∈ memInsert m a x) : c = (a, x) ∨ c ∈ m := by
  induction m with
  | nil => simpa [memInsert] using h
  | cons d t ih =>
    obtain ⟨k, v⟩ := d
    by_cases hk : a < k
    · simpa [memInsert, hk] using h
    · simp only [memInsert, hk, ↓reduceIte, List.mem_cons] at h ⊢
      rcases h with h | h
      · simp [h]
      · rcases ih h with h | h <;> simp [h]

theorem memWf_memErase {size : Nat} {m : List (Nat × BitVec w)} (a : Nat) (h : memWf size m = true) :
    memWf size (memErase m a) = true := by
  induction m with
  | nil => rfl
  | cons c t ih =>
    obtain ⟨k, v⟩ := c
    obtain ⟨h1, h2, h3, h4⟩ := (memWf_cons ..).1 h
    by_cases hk : k = a
    · simpa [memErase, hk] using ih h4
    · simp only [memErase, hk, ↓reduceIte]
      exact (memWf_cons ..).2 ⟨h1, h2, fun c hc => h3 c (mem_of_mem_memErase hc), ih h4⟩

theorem memErase_ne {m : List (Nat × BitVec w)} {a : Nat} {c : Nat × BitVec w} (h : c ∈ memErase m a) : c.1 ≠ a := by
  induction m with
  | nil => simp [memErase] at h
  | cons d t ih =>
    obtain ⟨k, v⟩ := d
    by_cases hk : k = a
    · simp only [memErase, hk, ↓reduceIte] at h
      exact ih h
    · simp only [memErase, hk, ↓reduceIte, List.mem_cons] at h
      rcases h with h | h
      · simpa [h] using hk
      · exact ih h

theorem memWf_memInsert {size : Nat} {m : List (Nat × BitVec w)} {a : Nat} {x : BitVec w} (h : memWf size m = true)
    (ha : a < size) (hx : x ≠ 0#w) (hn : ∀ c ∈ m, c.1 ≠ a) : memWf size (memInsert m a x) = true := by
  induction m with
  | nil => simpa [memInsert, memWf, ha] using hx
  | cons c t ih =>
    obtain ⟨k, v⟩ := c
    obtain ⟨h1, h2, h3, h4⟩ := (memWf_cons ..).1 h
    by_cases hk : a < k
    · simp only [memInsert, hk, ↓reduceIte]
      refine (memWf_cons ..).2 ⟨ha, hx, fun c hc => ?_, h⟩
      rcases List.mem_cons.1 hc with rfl | hc
      · exact hk
      · exact Nat.lt_trans hk (h3 c hc)
    · simp only [memInsert, hk, ↓reduceIte]
      refine (memWf_cons ..).2 ⟨h1, h2, fun c hc => ?_, ih h4 (fun c hc => hn c (List.mem_cons_of_mem _ hc))⟩
      rcases mem_memInsert hc with rfl | hc
      · have := hn (k, v) (by simp)
        simp at this ⊢
        omega
      · exact h3 c hc

/-- A write to an element that exists keeps the canonical form. -/
theorem memWf_memWrite {size : Nat} {m : List (Nat × BitVec w)} {a : Nat} (x : BitVec w) (h : memWf size m = true)
    (ha : a < size) : memWf size (memWrite m a x) = true := by
  by_cases hx : x = 0#w
  · simpa [memWrite, hx] using memWf_memErase a h
  · simpa [memWrite, hx] using memWf_memInsert (memWf_memErase a h) ha hx (fun c hc => memErase_ne hc)

/-- An element below every listed key reads as 0. -/
theorem memRead_eq_zero {m : List (Nat × BitVec w)} {a : Nat} (h : ∀ c ∈ m, a < c.1) : memRead m a = 0#w := by
  induction m with
  | nil => rfl
  | cons c t ih =>
    obtain ⟨k, v⟩ := c
    have hk : a < k := h (k, v) (by simp)
    have : k ≠ a := by omega
    simpa [memRead, this] using ih (fun c hc => h c (List.mem_cons_of_mem _ hc))

/-- No entry exists beyond the size. -/
theorem memRead_outside {size : Nat} {m : List (Nat × BitVec w)} {a : Nat} (h : memWf size m = true)
    (ha : size ≤ a) : memRead m a = 0#w := by
  induction m with
  | nil => rfl
  | cons c t ih =>
    obtain ⟨k, v⟩ := c
    obtain ⟨h1, -, -, h4⟩ := (memWf_cons ..).1 h
    have : k ≠ a := by omega
    simpa [memRead, this] using ih h4

/-- In canonical form equal contents are equal data. -/
theorem memWf_ext {size : Nat} {m n : List (Nat × BitVec w)} (hm : memWf size m = true) (hn : memWf size n = true)
    (h : ∀ a, memRead m a = memRead n a) : m = n := by
  induction m generalizing n with
  | nil =>
    cases n with
    | nil => rfl
    | cons d u =>
      obtain ⟨l, x⟩ := d
      have := h l
      simp [memRead] at this
      exact absurd this.symm ((memWf_cons ..).1 hn).2.1
  | cons c t ih =>
    obtain ⟨k, v⟩ := c
    obtain ⟨-, hv, hk, ht⟩ := (memWf_cons ..).1 hm
    cases n with
    | nil =>
      have := h k
      simp [memRead] at this
      exact absurd this hv
    | cons d u =>
      obtain ⟨l, x⟩ := d
      obtain ⟨-, hx, hl, hu⟩ := (memWf_cons ..).1 hn
      have hkl : k = l := by
        rcases Nat.lt_trichotomy k l with hlt | heq | hgt
        · have := h k
          have hne : l ≠ k := by omega
          simp [memRead, hne, memRead_eq_zero (m := u) (a := k) (fun c hc => Nat.lt_trans hlt (hl c hc))] at this
          exact absurd this hv
        · exact heq
        · have := h l
          have hne : k ≠ l := by omega
          simp [memRead, hne, memRead_eq_zero (m := t) (a := l) (fun c hc => Nat.lt_trans hgt (hk c hc))] at this
          exact absurd this.symm hx
      subst hkl
      have hvx : v = x := by simpa [memRead] using h k
      subst hvx
      refine congrArg _ (ih ht hu (fun a => ?_))
      by_cases ha : k = a
      · subst ha
        rw [memRead_eq_zero hk, memRead_eq_zero hl]
      · simpa [memRead, ha] using h a

end Sys2Proof.Machine
end

