-- ==== Sys2Proof/Laws/Stream.lean ====
section
/-! SUPPORT. The bit stream: what setting bits leaves in every bit and byte, and one lemma for each primitive that says
all it can answer. -/

namespace Sys2Proof.Machine

/-! ### One bit -/

theorem byteSetBit_getLsbD (x : Byte) {k : Nat} (b : Bool) (hk : k < 8) (j : Nat) :
    (byteSetBit x k b).getLsbD j = if j = k then b else x.getLsbD j := by
  have h2 : (BitVec.ofNat 8 (2 ^ k)).getLsbD j = decide (j = k) := by
    rw [BitVec.getLsbD_ofNat, Nat.testBit_two_pow]
    by_cases h : j = k
    · subst h; simp [hk]
    · simp [h, Ne.symm h]
  unfold byteSetBit
  cases b
  · rw [if_neg Bool.false_ne_true, BitVec.getLsbD_and, BitVec.getLsbD_not, h2]
    by_cases h : j = k
    · simp [h]
    · by_cases hj : j < 8
      · simp [h, hj]
      · rw [BitVec.getLsbD_of_ge x j (by omega)]
        simp [h]
  · rw [if_pos rfl, BitVec.getLsbD_or, h2]
    by_cases h : j = k <;> simp [h]

@[simp] theorem Stream.setBit_base (st : Stream) (p : Nat) (b : Bool) : (st.setBit p b).base = st.base := rfl
@[simp] theorem Stream.setBit_len (st : Stream) (p : Nat) (b : Bool) : (st.setBit p b).len = st.len := rfl
@[simp] theorem Stream.setBit_pos (st : Stream) (p : Nat) (b : Bool) : (st.setBit p b).pos = st.pos := rfl

/-- Setting a bit sets that bit and no other bit of the stream. -/
theorem Stream.setBit_bit (st : Stream) (p q : Nat) (b : Bool) :
    (st.setBit p b).bit q = if q = p then b else st.bit q := by
  simp only [Stream.bit, Stream.setBit, memRead_memWrite]
  by_cases h : st.base + q / 8 = st.base + p / 8
  · rw [if_pos h, byteSetBit_getLsbD _ _ (by omega)]
    by_cases hq : q = p
    · simp [hq]
    · have h2 : ¬ (7 - q % 8 = 7 - p % 8) := by omega
      rw [if_neg h2, if_neg hq, h]
  · have hq : q ≠ p := by rintro rfl; exact h rfl
    rw [if_neg h, if_neg hq]

/-- Setting a bit changes the byte it lies in and no other. -/
theorem Stream.setBit_memRead (st : Stream) (p : Nat) (b : Bool) {a : Nat} (h : a ≠ st.base + p / 8) :
    memRead (st.setBit p b).buf a = memRead st.buf a := by
  simp [Stream.setBit, memRead_memWrite_other _ _ h]

/-! ### A bit string -/

@[simp] theorem Stream.putBits_base (st : Stream) (p : Nat) (bs : List Bool) : (st.putBits p bs).base = st.base := by
  induction bs generalizing st p with
  | nil => rfl
  | cons b bs ih => simp [Stream.putBits, ih]

@[simp] theorem Stream.putBits_len (st : Stream) (p : Nat) (bs : List Bool) : (st.putBits p bs).len = st.len := by
  induction bs generalizing st p with
  | nil => rfl
  | cons b bs ih => simp [Stream.putBits, ih]

@[simp] theorem Stream.putBits_pos (st : Stream) (p : Nat) (bs : List Bool) : (st.putBits p bs).pos = st.pos := by
  induction bs generalizing st p with
  | nil => rfl
  | cons b bs ih => simp [Stream.putBits, ih]

/-- Writing a bit string sets its bits and no other bit of the stream. -/
theorem Stream.putBits_bit (st : Stream) (p q : Nat) (bs : List Bool) :
    (st.putBits p bs).bit q = if p ≤ q ∧ q < p + bs.length then bs.getD (q - p) false else st.bit q := by
  induction bs generalizing st p with
  | nil => rw [if_neg (by simp only [List.length_nil]; omega)]; rfl
  | cons b bs ih =>
    rw [Stream.putBits, ih, Stream.setBit_bit]
    by_cases h1 : p + 1 ≤ q ∧ q < p + 1 + bs.length
    · have h3 : q - p = q - (p + 1) + 1 := by omega
      rw [if_pos h1, if_pos (by simp only [List.length_cons]; omega), h3]
      rfl
    · rw [if_neg h1]
      by_cases h2 : q = p
      · subst h2
        rw [if_pos rfl, if_pos (by simp only [List.length_cons]; omega)]
        simp
      · rw [if_neg h2, if_neg (by simp only [List.length_cons]; omega)]

/-- Writing a bit string changes the bytes its bits lie in and no other. -/
theorem Stream.putBits_memRead (st : Stream) (p : Nat) (bs : List Bool) {a : Nat}
    (h : ∀ k < bs.length, a ≠ st.base + (p + k) / 8) : memRead (st.putBits p bs).buf a = memRead st.buf a := by
  induction bs generalizing st p with
  | nil => rfl
  | cons b bs ih =>
    rw [Stream.putBits, ih]
    · exact Stream.setBit_memRead st p b (by simpa using h 0 (by simp))
    · intro k hk
      have := h (k + 1) (by simpa using hk)
      rw [Stream.setBit_base]
      intro h2
      apply this
      rw [h2]
      congr 2
      omega

/-- Writing a bit string within the memory keeps its canonical form. -/
theorem Stream.putBits_memWf {size : Nat} (st : Stream) (p : Nat) (bs : List Bool) (h : memWf size st.buf = true)
    (hb : ∀ k < bs.length, st.base + (p + k) / 8 < size) : memWf size (st.putBits p bs).buf = true := by
  induction bs generalizing st p with
  | nil => exact h
  | cons b bs ih =>
    rw [Stream.putBits]
    refine ih _ _ (memWf_memWrite _ h (by simpa using hb 0 (by simp))) (fun k hk => ?_)
    have := hb (k + 1) (by simpa using hk)
    rw [Stream.setBit_base]
    rwa [show p + 1 + k = p + (k + 1) by omega]

/-! ### Reading a bit string -/

@[simp] theorem Stream.bits_length (st : Stream) (p n : Nat) : (st.bits p n).length = n := by simp [Stream.bits]

theorem Stream.bits_getD (st : Stream) (p n k : Nat) (h : k < n) : (st.bits p n).getD k false = st.bit (p + k) := by
  simp [Stream.bits, h]

/-- A bit string is one bit of the stream after another. -/
theorem Stream.bits_eq_iff (st : Stream) (p : Nat) (bs : List Bool) :
    st.bits p bs.length = bs ↔ ∀ k < bs.length, st.bit (p + k) = bs.getD k false := by
  constructor
  · intro h k hk
    rw [← Stream.bits_getD st p bs.length k hk, h]
  · intro h
    apply List.ext_getElem
    · simp
    · intro k h1 h2
      have := h k h2
      simp [Stream.bits, this, h2]

theorem Stream.bits_add (st : Stream) (p m n : Nat) : st.bits p (m + n) = st.bits p m ++ st.bits (p + m) n := by
  simp only [Stream.bits, List.range_add, List.map_append, List.map_map]
  congr 1
  apply List.map_congr_left
  intro k _
  simp [Nat.add_assoc]

theorem Stream.putBits_bits (st : Stream) (p : Nat) (bs : List Bool) : (st.putBits p bs).bits p bs.length = bs := by
  rw [Stream.bits_eq_iff]
  intro k hk
  rw [Stream.putBits_bit, if_pos (by omega), Nat.add_sub_cancel_left]

/-! ### Numbers and bit strings -/

@[simp] theorem bitsOf_length (n v : Nat) : (bitsOf n v).length = n := by simp [bitsOf]

theorem bitsOf_succ (n v : Nat) : bitsOf (n + 1) v = v.testBit n :: bitsOf n v := by
  simp only [bitsOf, List.range_succ_eq_map, List.map_cons, List.map_map]
  simp only [List.cons.injEq]
  constructor
  · simp
  · apply List.map_congr_left
    intro k _
    simp only [Function.comp]
    congr 1
    omega

/-- The bits of a number read back are its low bits. -/
theorem foldl_bitsOf (n v acc : Nat) :
    (bitsOf n v).foldl (fun v b => 2 * v + b.toNat) acc = acc * 2 ^ n + v % 2 ^ n := by
  induction n generalizing acc with
  | zero => simp [bitsOf, Nat.mod_one]
  | succ n ih =>
    rw [bitsOf_succ, List.foldl_cons, ih, Nat.testBit_eq_decide_div_mod_eq, Nat.mod_pow_succ, pow_succ]
    have h : v / 2 ^ n % 2 = 0 ∨ v / 2 ^ n % 2 = 1 := by omega
    rcases h with h | h
    · simp only [h, Nat.zero_ne_one, decide_false, Bool.toNat_false]; ring
    · simp only [h, decide_true, Bool.toNat_true]; ring

theorem bitsVal_bitsOf (n v : Nat) : bitsVal (bitsOf n v) = v % 2 ^ n := by
  simp [bitsVal, foldl_bitsOf]

/-- The bits of a number do not depend on the bits above them. -/
theorem bitsOf_mod {n m : Nat} (v : Nat) (h : n ≤ m) : bitsOf n (v % 2 ^ m) = bitsOf n v := by
  simp only [bitsOf]
  apply List.map_congr_left
  intro k hk
  have : k < n := by simpa using hk
  rw [Nat.testBit_mod_two_pow]
  have h2 : n - 1 - k < m := by omega
  simp [h2]

theorem bitsVal_lt (bs : List Bool) : bitsVal bs < 2 ^ bs.length := by
  have h : ∀ acc : Nat, bs.foldl (fun v b => 2 * v + b.toNat) acc < (acc + 1) * 2 ^ bs.length := by
    induction bs with
    | nil => intro acc; simp
    | cons b bs ih =>
      intro acc
      refine Nat.lt_of_lt_of_le (ih _) ?_
      have : 2 * acc + b.toNat + 1 ≤ 2 * (acc + 1) := by cases b <;> simp [Nat.mul_add]
      calc (2 * acc + b.toNat + 1) * 2 ^ bs.length ≤ 2 * (acc + 1) * 2 ^ bs.length := Nat.mul_le_mul_right _ this
        _ = (acc + 1) * 2 ^ (b :: bs).length := by simp [pow_succ]; ring
  simpa [bitsVal] using h 0

/-! ### The primitives -/

@[simp] theorem require_ok (c : Bool) (e : Err) : require c e = .ok () ↔ c = true := by
  cases c <;> simp [require]

theorem require_eq (c : Bool) (e : Err) : require c e = if c then .ok () else .error e := rfl

/-- BSRead of a width from 0 to 32 (40 R143). -/
theorem Stream.read_eq (st : Stream) {n : Nat} (hn : n ≤ 32) :
    st.read n = if st.pos + n ≤ st.len then .ok (bitsVal (st.bits st.pos n), { st with pos := st.pos + n })
      else .error .streamExhausted := by
  have h : decide (0 ≤ (n : Int) ∧ (n : Int) ≤ 32) = true := by simp; omega
  unfold Stream.read
  rw [h]
  by_cases hp : st.pos + n ≤ st.len <;> simp [require, hp, bind, Except.bind, pure, Except.pure]

/-- BSRead of any other width (40 R143, R146). -/
theorem Stream.read_bad (st : Stream) {n : Int} (hn : n < 0 ∨ 32 < n) : st.read n = .error .badOperand := by
  have h : decide (0 ≤ n ∧ n ≤ 32) = false := by simp; omega
  unfold Stream.read
  rw [h]
  rfl

/-- BSRead(1) as a bit. -/
theorem Stream.readBit_eq (st : Stream) :
    st.readBit = if st.pos + 1 ≤ st.len then .ok (st.bit st.pos, { st with pos := st.pos + 1 })
      else .error .streamExhausted := by
  unfold Stream.readBit
  by_cases hp : st.pos + 1 ≤ st.len <;> simp [require, hp, bind, Except.bind, pure, Except.pure]

/-- BSWrite of a width from 0 to 32 (40 R144). -/
theorem Stream.write_eq (st : Stream) {n : Nat} (v : Int) (hn : n ≤ 32) :
    st.write n v = if st.pos + n ≤ st.len then
        .ok { st.putBits st.pos (bitsOf n (v % 4294967296).toNat) with pos := st.pos + n }
      else .error .streamOverflow := by
  have h : decide (0 ≤ (n : Int) ∧ (n : Int) ≤ 32) = true := by simp; omega
  unfold Stream.write
  rw [h]
  by_cases hp : st.pos + n ≤ st.len <;> simp [require, hp, bind, Except.bind, pure, Except.pure]

/-- BSWrite of any other width (40 R144, R146). -/
theorem Stream.write_bad (st : Stream) {n : Int} (v : Int) (hn : n < 0 ∨ 32 < n) :
    st.write n v = .error .badOperand := by
  have h : decide (0 ≤ n ∧ n ≤ 32) = false := by simp; omega
  unfold Stream.write
  rw [h]
  rfl

/-- The write of a codeword of at most 32 bits. -/
theorem Stream.writeCode_eq (st : Stream) (c : Codeword) (hc : c.len ≤ 32) :
    st.writeCode c = if st.pos + c.len ≤ st.len then
        .ok { st.putBits st.pos (codewordBits c) with pos := st.pos + c.len }
      else .error .streamOverflow := by
  have h : ((c.pat : Int) % 4294967296).toNat = c.pat % 2 ^ 32 := by omega
  rw [Stream.writeCode, Stream.write_eq st c.pat hc, h, bitsOf_mod c.pat hc]
  rfl

/-- A codeword written and its bits read back. -/
theorem Stream.writeCode_bits {st st' : Stream} {c : Codeword} (hc : c.len ≤ 32) (h : st.writeCode c = .ok st') :
    st'.bits st.pos c.len = codewordBits c ∧ st'.pos = st.pos + c.len ∧ st'.len = st.len ∧ st'.base = st.base := by
  rw [Stream.writeCode_eq st c hc] at h
  split at h
  · cases h
    refine ⟨?_, rfl, by simp, by simp⟩
    have := Stream.putBits_bits st st.pos (codewordBits c)
    rw [show (codewordBits c).length = c.len by simp [codewordBits]] at this
    exact this
  · cases h

end Sys2Proof.Machine
end

