-- ==== Sys2Proof/Laws/Command.lean ====
section
/-! SUPPORT. What the shared operations can do: the shape of a command, the write of one codeword, a list of writes,
and the write-set of a dirty error. -/

namespace Sys2Proof.Machine

/-! ### The shape of a command -/

/-- All a command can do. -/
theorem State.command_cases {α : Type} (s : State) (check : Except Err α) (body : α → Except Err State)
    (onError : α → Err → State) :
    (∃ e, check = .error e ∧ s.command check body onError = s.fail e) ∨
    (∃ a e, check = .ok a ∧ body a = .error e ∧ s.command check body onError = onError a e) ∨
    (∃ a t, check = .ok a ∧ body a = .ok t ∧ s.command check body onError = t.succeed) := by
  cases check with
  | error e => exact .inl ⟨e, rfl, rfl⟩
  | ok a =>
    cases h : body a with
    | error e => exact .inr (.inl ⟨a, e, rfl, h, by simp [State.command, h]⟩)
    | ok t => exact .inr (.inr ⟨a, t, rfl, h, by simp [State.command, h]⟩)

theorem State.cleanCommand_ok {s t : State} {body : Except Err State} (h : body = .ok t) :
    s.cleanCommand body = t.succeed := by
  subst h; rfl

theorem State.cleanCommand_error {s : State} {body : Except Err State} {e : Err} (h : body = .error e) :
    s.cleanCommand body = s.fail e := by
  subst h; rfl

theorem State.cleanCommand_cases (s : State) (body : Except Err State) :
    (∃ e, body = .error e ∧ s.cleanCommand body = s.fail e) ∨
    (∃ t, body = .ok t ∧ s.cleanCommand body = t.succeed) := by
  cases body with
  | error e => exact .inl ⟨e, rfl, rfl⟩
  | ok t => exact .inr ⟨t, rfl, rfl⟩

theorem State.dirtyCommand_ok {α : Type} {s t : State} {ws : WriteSet} {check : Except Err α}
    {body : α → Except Err State} {a : α} (hc : check = .ok a) (hb : body a = .ok t) :
    s.dirtyCommand ws check body = t.succeed := by
  subst hc
  simp [State.dirtyCommand, State.command, hb]

theorem State.dirtyCommand_cases {α : Type} (s : State) (ws : WriteSet) (check : Except Err α)
    (body : α → Except Err State) :
    (∃ e, check = .error e ∧ s.dirtyCommand ws check body = s.fail e) ∨
    (∃ a e, check = .ok a ∧ body a = .error e ∧ s.dirtyCommand ws check body = (s.spoil ws).fail e) ∨
    (∃ a t, check = .ok a ∧ body a = .ok t ∧ s.dirtyCommand ws check body = t.succeed) :=
  s.command_cases check body _

theorem State.firstRead_eq (s : State) :
    s.firstRead = if s.bsPos.toNat + 1 ≤ s.bsLen.toNat then .ok () else .error .streamExhausted := by
  simp [State.firstRead, require, State.stream]

/-- All a decode command can do: a clean operand error, a clean StreamExhausted with no bit left, a dirty error later,
or success. -/
theorem State.decodeCommand_cases {α : Type} (s : State) (ws : WriteSet) (check : Except Err α)
    (body : α → Except Err State) :
    (∃ e, check = .error e ∧ s.decodeCommand ws check body = s.fail e) ∨
    (∃ a, check = .ok a ∧ s.bsLen.toNat ≤ s.bsPos.toNat ∧ s.decodeCommand ws check body = s.fail .streamExhausted) ∨
    (∃ a e, check = .ok a ∧ s.bsPos.toNat < s.bsLen.toNat ∧ body a = .error e ∧
      s.decodeCommand ws check body = (s.spoil ws).fail e) ∨
    (∃ a t, check = .ok a ∧ s.bsPos.toNat < s.bsLen.toNat ∧ body a = .ok t ∧
      s.decodeCommand ws check body = t.succeed) := by
  cases hc : check with
  | error e => exact .inl ⟨e, rfl, rfl⟩
  | ok a =>
    by_cases h : s.bsPos.toNat < s.bsLen.toNat
    · have hd : s.decodeCommand ws (.ok a) body = s.dirtyCommand ws (.ok a) body := by
        simp [State.decodeCommand, State.firstRead_eq, Nat.succ_le_of_lt h, bind, Except.bind, pure, Except.pure]
      rcases s.dirtyCommand_cases ws (.ok a) body with ⟨e, he, _⟩ | ⟨b, e, hb, h1, h2⟩ | ⟨b, t, hb, h1, h2⟩
      · cases he
      · cases hb; exact .inr (.inr (.inl ⟨a, e, rfl, h, h1, hd.trans h2⟩))
      · cases hb; exact .inr (.inr (.inr ⟨a, t, rfl, h, h1, hd.trans h2⟩))
    · refine .inr (.inl ⟨a, rfl, Nat.le_of_not_lt h, ?_⟩)
      have h' : ¬ s.bsPos.toNat + 1 ≤ s.bsLen.toNat := h
      simp [State.decodeCommand, State.dirtyCommand, State.command, State.firstRead_eq, h', bind, Except.bind]

theorem State.mbCommand_cases {α : Type} (s : State) (ws : α → WriteSet) (check : Except Err α)
    (body : α → Except Err State) :
    (∃ e, check = .error e ∧ s.mbCommand ws check body = s.fail e) ∨
    (∃ a e, check = .ok a ∧ body a = .error e ∧ s.mbCommand ws check body = (s.spoil (ws a)).failMb e) ∨
    (∃ a t, check = .ok a ∧ body a = .ok t ∧ s.mbCommand ws check body = t.succeed) :=
  s.command_cases check body _

/-! ### One codeword written and reported -/

/-- All `emit` can answer for a codeword of at most 32 bits. -/
theorem State.emit_eq (s : State) (c : Codeword) (hc : c.len ≤ 32) :
    s.emit c = if s.bsPos.toNat + c.len ≤ s.bsLen.toNat then
        .ok (((s.setStream { s.stream.putBits s.bsPos.toNat (codewordBits c) with
          pos := s.bsPos.toNat + c.len }).setResInt 0 c.len).setResInt 1 c.pat)
      else .error .streamOverflow := by
  unfold State.emit
  rw [Stream.writeCode_eq _ _ hc]
  change (if s.bsPos.toNat + c.len ≤ s.bsLen.toNat then _ else _) >>= _ = _
  split <;> rfl

/-- A stream put back whose position lies within the bound stream is the state's stream. -/
theorem State.setStream_stream (s : State) (st : Stream) (hb : st.base = s.bsBase.toNat) (hl : st.len = s.bsLen.toNat)
    (hp : st.pos ≤ st.len) : (s.setStream st).stream = st := by
  have h : st.pos % 2 ^ 32 = st.pos := Nat.mod_eq_of_lt (by have := s.bsLen.isLt; omega)
  obtain ⟨buf, base, len, pos⟩ := st
  simp only at hb hl h
  subst hb hl
  simp only [State.stream, State.setStream, BitVec.toNat_ofNat, h]

/-! ### Lists of writes -/

theorem Stream.writeItems_nil (st : Stream) : st.writeItems [] = .ok st := rfl

theorem Stream.writeItems_error (st : Stream) (e : Err) (rest : List Item) :
    st.writeItems (.error e :: rest) = .error e := rfl

theorem Stream.writeItems_ok (st : Stream) (c : Codeword) (rest : List Item) :
    st.writeItems (.ok c :: rest) = (st.writeCode c).bind (fun st' => st'.writeItems rest) := by
  simp only [Stream.writeItems, Except.bind]
  split <;> simp_all

theorem Stream.writeItems_append (st : Stream) (xs ys : List Item) :
    st.writeItems (xs ++ ys) = (st.writeItems xs).bind (fun st' => st'.writeItems ys) := by
  induction xs generalizing st with
  | nil => rfl
  | cons x xs ih =>
    cases x with
    | error e => rfl
    | ok c =>
      rw [List.cons_append, Stream.writeItems_ok, Stream.writeItems_ok]
      cases st.writeCode c with
      | error e => rfl
      | ok st' => exact ih st'

/-! ### The first write of a CAVLC encode command -/

theorem State.firstWrite_error (s : State) (e : Err) (rest : List Item) :
    s.firstWrite (.error e :: rest) = .error e := rfl

theorem State.firstWrite_ok (s : State) (c : Codeword) (rest : List Item) (hc : c.len ≤ 32) :
    s.firstWrite (.ok c :: rest) =
      if s.bsPos.toNat + c.len ≤ s.bsLen.toNat then .ok () else .error .streamOverflow := by
  change (s.stream.writeCode c).bind (fun _ => .ok ()) = _
  rw [Stream.writeCode_eq _ _ hc]
  change Except.bind (if s.bsPos.toNat + c.len ≤ s.bsLen.toNat then _ else _) _ = _
  split <;> rfl

/-- A list of writes that succeeds has a first write that does. -/
theorem State.firstWrite_of_writeItems {s : State} {items : List Item} {st : Stream}
    (h : s.stream.writeItems items = .ok st) : s.firstWrite items = .ok () := by
  cases items with
  | nil => rfl
  | cons x rest =>
    cases x with
    | error e => cases h
    | ok c =>
      rw [Stream.writeItems_ok] at h
      change (s.stream.writeCode c).bind (fun _ => .ok ()) = _
      cases hw : s.stream.writeCode c with
      | error e => rw [hw] at h; cases h
      | ok st' => rfl

/-- All a CAVLC encode command can do: a clean operand error, a clean error of its first write, a dirty error later,
or success. -/
theorem State.encodeCommand_cases (s : State) (check : Except Err Unit) (cs : List Int) (maxN : Nat) (nc : Int) :
    (∃ e, check = .error e ∧ s.encodeCommand check cs maxN nc = s.fail e) ∨
    (∃ e, check = .ok () ∧ s.firstWrite (cavlcItems cs maxN nc) = .error e ∧
      s.encodeCommand check cs maxN nc = s.fail e) ∨
    (∃ e, check = .ok () ∧ s.firstWrite (cavlcItems cs maxN nc) = .ok () ∧ s.encodeBlock cs maxN nc = .error e ∧
      s.encodeCommand check cs maxN nc = (s.spoil (cavlcWrites true 0)).fail e) ∨
    (∃ t, check = .ok () ∧ s.encodeBlock cs maxN nc = .ok t ∧ s.encodeCommand check cs maxN nc = t.succeed) := by
  cases check with
  | error e => exact .inl ⟨e, rfl, rfl⟩
  | ok u =>
    cases hf : s.firstWrite (cavlcItems cs maxN nc) with
    | error e =>
      refine .inr (.inl ⟨e, rfl, rfl, ?_⟩)
      simp [State.encodeCommand, State.dirtyCommand, State.command, hf, bind, Except.bind]
    | ok v =>
      have hd : s.encodeCommand (.ok u) cs maxN nc =
          s.dirtyCommand (cavlcWrites true 0) (.ok ()) (fun _ => s.encodeBlock cs maxN nc) := by
        simp [State.encodeCommand, hf, bind, Except.bind]
      rcases s.dirtyCommand_cases (cavlcWrites true 0) (.ok ()) (fun _ => s.encodeBlock cs maxN nc) with
        ⟨e, he, _⟩ | ⟨_, e, _, h1, h2⟩ | ⟨_, t, _, h1, h2⟩
      · cases he
      · exact .inr (.inr (.inl ⟨e, rfl, rfl, h1, hd.trans h2⟩))
      · exact .inr (.inr (.inr ⟨t, rfl, h1, hd.trans h2⟩))

/-! ### The write-set of a dirty error -/

theorem fillVec_getD {n : Nat} (v : Vector Word n) (count : Nat) (f : Nat → Word) (k : Nat) (hk : k < n) :
    (fillVec v count f).getD k 0 = if k < count then f k else v.getD k 0 := by
  simp [fillVec, Vector.getD, hk]

theorem Stream.spoil_pos (st : Stream) (d : Nat) (writes : Bool) (h : st.pos ≤ st.len) :
    st.pos ≤ (st.spoil d writes).pos ∧ (st.spoil d writes).pos ≤ st.len := by
  have := Nat.mod_lt (Config.freeNat d) (show 0 < st.len - st.pos + 1 by omega)
  simp only [Stream.spoil]
  omega

@[simp] theorem Stream.spoil_base (st : Stream) (d : Nat) (writes : Bool) : (st.spoil d writes).base = st.base := by
  simp [Stream.spoil]

@[simp] theorem Stream.spoil_len (st : Stream) (d : Nat) (writes : Bool) : (st.spoil d writes).len = st.len := by
  simp [Stream.spoil]

@[simp] theorem Stream.spoil_buf_read (st : Stream) (d : Nat) : (st.spoil d false).buf = st.buf := by
  simp [Stream.spoil, Stream.putBits]

/-- A dirty error touches no stream bit before its start position or from the bound on. -/
theorem Stream.spoil_bit (st : Stream) (d : Nat) (writes : Bool) {q : Nat} (h : q < st.pos ∨ st.len ≤ q) :
    (st.spoil d writes).bit q = st.bit q := by
  change (st.putBits st.pos _).bit q = st.bit q
  rw [Stream.putBits_bit, if_neg]
  cases writes
  · simp only [Bool.false_eq_true, if_false, List.length_nil]; omega
  · simp only [if_true, List.length_map, List.length_range]; omega

/-- A dirty error touches no byte outside the bits it may write. -/
theorem Stream.spoil_memRead (st : Stream) (d : Nat) (writes : Bool) {a : Nat}
    (h : ∀ q, st.pos ≤ q → q < st.len → a ≠ st.base + q / 8) :
    memRead (st.spoil d writes).buf a = memRead st.buf a := by
  change memRead (st.putBits st.pos _).buf a = _
  apply Stream.putBits_memRead
  intro k hk
  cases writes
  · simp at hk
  · simp only [if_true, List.length_map, List.length_range] at hk
    exact h _ (by omega) (by omega)

theorem Stream.spoil_memWf {size : Nat} (st : Stream) (d : Nat) (writes : Bool) (h : memWf size st.buf = true)
    (hb : 8 * st.base + st.len ≤ 8 * size) : memWf size (st.spoil d writes).buf = true := by
  apply Stream.putBits_memWf _ _ _ h
  intro k hk
  cases writes
  · simp at hk
  · simp only [if_true, List.length_map, List.length_range] at hk
    omega

/-- `t` is `s` but for its output planes. -/
def State.OnlyPout (s t : State) : Prop := ∃ y b r, t = { s with poutY := y, poutCb := b, poutCr := r }

theorem State.OnlyPout.refl (s : State) : s.OnlyPout s := ⟨s.poutY, s.poutCb, s.poutCr, rfl⟩

theorem State.OnlyPout.trans {s t u : State} (h : s.OnlyPout t) (h2 : t.OnlyPout u) : s.OnlyPout u := by
  obtain ⟨_, _, _, rfl⟩ := h
  obtain ⟨y, b, r, rfl⟩ := h2
  exact ⟨y, b, r, rfl⟩

theorem State.OnlyPout.eq {s t : State} (h : s.OnlyPout t) :
    t = { s with poutY := t.poutY, poutCb := t.poutCb, poutCr := t.poutCr } := by
  obtain ⟨_, _, _, rfl⟩ := h
  rfl

/-- A plane write changes an output plane alone. -/
theorem State.writePout_only (s : State) (p : Plane) (row col : Nat) (w : Word) :
    s.OnlyPout (s.writePout p row col w) := by
  cases p <;> exact ⟨_, _, _, rfl⟩

/-- Writes of elements of planes, one after another, change the output planes alone. -/
theorem State.foldl_only {β : Type} (f : State → β → State) (hf : ∀ (t : State) (x : β), t.OnlyPout (f t x)) (l : List β) (s : State) :
    s.OnlyPout (l.foldl f s) := by
  induction l generalizing s with
  | nil => exact State.OnlyPout.refl s
  | cons x xs ih => exact (hf s x).trans (ih _)

theorem State.spoilViews_only (s : State) (d m : Nat) : s.OnlyPout (s.spoilViews d m) :=
  have h := fun (t : State) (p : Plane) => State.foldl_only
    (fun t (ij : Nat × Nat) => t.writePout p (t.viewRow p m ij.1) (t.viewCol p m ij.2)
      (Config.freeWord d (.pout p ij.1 ij.2))) (fun _ _ => State.writePout_only ..) (square (viewSide p)) t
  ((h s .y).trans (h _ .cb)).trans (h _ .cr)

/-- The output planes are all that a dirty error changes beyond `spoilCore` (60 R411). -/
theorem State.spoil_only (s : State) (ws : WriteSet) : (s.spoilCore ws).OnlyPout (s.spoil ws) := by
  unfold State.spoil
  generalize s.spoilCore ws = u
  split
  · exact State.OnlyPout.refl u
  · split
    · exact State.spoilViews_only u _ _
    · exact State.OnlyPout.refl u

theorem State.spoil_eq (s : State) (ws : WriteSet) :
    s.spoil ws = { s.spoilCore ws with
      poutY := (s.spoil ws).poutY, poutCb := (s.spoil ws).poutCb, poutCr := (s.spoil ws).poutCr } :=
  (s.spoil_only ws).eq

/-- `spoilCore` leaves the output planes. -/
@[simp] theorem State.spoilCore_pout (s : State) (ws : WriteSet) (p : Plane) : (s.spoilCore ws).pout p = s.pout p := by
  cases p <;> simp [State.spoilCore, State.pout]

/-- A command that names no output plane spoils none. -/
theorem State.spoil_eq_core (s : State) (ws : WriteSet) (h : ws.writesPout = false) : s.spoil ws = s.spoilCore ws := by
  unfold State.spoil
  generalize s.spoilCore ws = u
  rw [h]
  split <;> rfl

end Sys2Proof.Machine
end

