-- ==== Sys2Proof/Tests/Slice0.lean ====
section
/-! SUPPORT. Tests of the model: ill-formed words and accesses are refused, command words written out from 30 R106
decode to their commands, one or two steps of each command give what 95_test_vectors.md says (a test's comment names
its vector), and the hypotheses of each statement are met by a concrete state. -/

namespace Sys2Proof.Tests

open Sys2Proof Sys2Proof.Machine

set_option Elab.async false

/-! ### Small states -/

/-- The parameters of 95 section 2: BS_BYTES = 4096, and the smallest MAX_MBW and MAX_MBH (00 R10). -/
def cfg : Config := { bsBytes := 4096, maxMbw := 3, maxMbh := 3, chromaQpOffset := 0 }

/-- A "fresh stream" of 95 section 2: reset, BSBUF all zero, 32768 bits bound. -/
def fresh : State := { State.resetOf cfg with bsLen := 32768 }

/-- Sixteen elements of a buffer from a list of integers, padded with 0. -/
def vec (l : List Int) : Vec16 := vec16 (fun k => toWord (l.getD k 0))

/-- ARG[0], ARG[1], ... hold the listed integers. -/
def args (s : State) (l : List Int) : State := { s with arg := vec l }

/-- A state whose stream is exactly the low `n` bits of `v` from bit 0 on ("a decode row" of 95 section 2). -/
def onBits (n v : Nat) : State :=
  { fresh with bsbuf := (Stream.putBits ⟨[], 0, n, 0⟩ 0 (bitsOf n v)).buf, bsLen := BitVec.ofNat 32 n }

/-- The state after a command. -/
def after (i : Instr) (s : State) : Option State :=
  match exec i s with
  | .next t => some t
  | _ => none

/-- The state after a step. -/
def stepped (s : State) : Option State :=
  match step s with
  | .next t => some t
  | _ => none

/-- STATUS, the first `k` RES registers and BS_POS after a command. -/
def seen (k : Nat) (i : Instr) (s : State) : Option (Nat × List Int × Nat) :=
  (after i s).map (fun t => (t.status.toNat, (List.range k).map (fun j => (t.getRes j).toInt), t.bsPos.toNat))

/-- STATUS after a command. -/
def ends (i : Instr) (s : State) : Option Nat := (after i s).map (fun t => t.status.toNat)

/-- Whether the stream holds the low `n` bits of `v` from bit 0 on. -/
def holds (n v : Nat) (s : State) : Bool := s.stream.bits 0 n == bitsOf n v

/-- STATUS, the first `k` RES registers and BS_POS after an encode command that writes the low `n` bits of `v`. -/
def wrote (k n v : Nat) (i : Instr) (s : State) : Option (Nat × List Int × Nat) :=
  match after i s with
  | none => none
  | some t => if holds n v t then seen k i s else none

/-- A grid of one macroblock on a fresh stream. -/
def grid1 : State := { fresh with gridW := 1, gridH := 1, gridValid := true }

/-- A grid of two macroblocks by two on a fresh stream (V638 to V650). -/
def grid2 : State := { fresh with gridW := 2, gridH := 2, gridValid := true }

/-- The operands of the MB_ENCODE rows V635 to V654: ARG0 = m, intra in an I slice at QP 26. -/
def intraArgs (m : Int) : List Int := [m, 0, 2, 26, 1, 0, 0, 0, 0, 26]

/-! ### Ill-formed words and accesses -/

/-- RSVD not 0 is refused (V703, V704), and an opcode the map does not list (V702). -/
theorem test_ill_formed_words :
    wellFormedWord 0x00000110#32 = false ∧ wellFormedWord 0xFFFFFFFF#32 = false ∧ wellFormedWord 0x80000000#32 = false ∧
    wellFormedWord 0x00000002#32 = false ∧ wellFormedWord 0x00000057#32 = false ∧
    wellFormedWord 0x00000056#32 = true := by decide

/-- An access of the wrong width is refused (93 I9). -/
theorem test_ill_formed_accesses :
    (HostAccess.read .status .byte).wellFormed = false ∧ (HostAccess.write (.arg 0) .half 1).wellFormed = false ∧
    (HostAccess.read (.bsbuf 0) .word).wellFormed = false ∧ (HostAccess.read (.bsbuf 0) .byte).wellFormed = true := by
  decide

/-- step refuses an ill-formed access by name, and faults on an element that does not exist. -/
theorem test_step_refuses :
    step { fresh with pending := [.read .status .byte] } = .refused (.hostAccess (.read .status .byte)) ∧
    step { fresh with pending := [.read (.arg 16) .word] } = .fault (.noSuchLocation (.arg 16)) ∧
    step { fresh with pending := [.write (.bsbuf 4096) .byte 1] } = .fault (.noSuchLocation (.bsbuf 4096)) :=
  ⟨rfl, rfl, rfl⟩

/-- An illegal command word changes STATUS and ERRACC alone (V702, V703). -/
theorem test_illegal_words :
    (stepped ((State.resetOf cfg).withFetchWord 32 0x2)).map (fun t => (t.status, t.errAcc)) = some (8, 0x100) ∧
    (stepped ((State.resetOf cfg).withFetchWord 32 0x110)).map (fun t => (t.status, t.errAcc)) = some (8, 0x100) := by
  decide +kernel

/-! ### Decoding: words written out from 30 R106, bits [31:8] zero, bits [7:0] the opcode -/

theorem test_decode_system :
    decode 0b00000000000000000000000000000000#32 = .ok .nop ∧
    decode 0b00000000000000000000000000000001#32 = .ok .clrerr := by decide

theorem test_decode_bitstream :
    decode 0b00000000000000000000000000001000#32 = .ok .bsBind ∧
    decode 0b00000000000000000000000000001001#32 = .ok .bsReset ∧
    decode 0b00000000000000000000000000001010#32 = .ok .bsRead1 ∧
    decode 0b00000000000000000000000000001011#32 = .ok .bsReadn ∧
    decode 0b00000000000000000000000000001100#32 = .ok .bsWrite := by decide

theorem test_decode_expgolomb :
    decode 0b00000000000000000000000000010000#32 = .ok .ueEnc ∧
    decode 0b00000000000000000000000000010001#32 = .ok .ueDec ∧
    decode 0b00000000000000000000000000010010#32 = .ok .seEnc ∧
    decode 0b00000000000000000000000000010011#32 = .ok .seDec ∧
    decode 0b00000000000000000000000000010100#32 = .ok .teEnc ∧
    decode 0b00000000000000000000000000010101#32 = .ok .teDec := by decide

theorem test_decode_codebooks :
    decode 0b00000000000000000000000000100000#32 = .ok .ctEnc ∧
    decode 0b00000000000000000000000000100001#32 = .ok .ctDec ∧
    decode 0b00000000000000000000000000100010#32 = .ok .tz4Enc ∧
    decode 0b00000000000000000000000000100011#32 = .ok .tz4Dec ∧
    decode 0b00000000000000000000000000100100#32 = .ok .tzc2Enc ∧
    decode 0b00000000000000000000000000100101#32 = .ok .tzc2Dec ∧
    decode 0b00000000000000000000000000100110#32 = .ok .tzc4Enc ∧
    decode 0b00000000000000000000000000100111#32 = .ok .tzc4Dec ∧
    decode 0b00000000000000000000000000101000#32 = .ok .rbEnc ∧
    decode 0b00000000000000000000000000101001#32 = .ok .rbDec ∧
    decode 0b00000000000000000000000000101010#32 = .ok .pfxEnc ∧
    decode 0b00000000000000000000000000101011#32 = .ok .pfxDec ∧
    decode 0b00000000000000000000000000101100#32 = .ok .cbpEnc ∧
    decode 0b00000000000000000000000000101101#32 = .ok .cbpDec := by decide

theorem test_decode_cavlc :
    decode 0b00000000000000000000000000110000#32 = .ok .cavlcEnc4 ∧
    decode 0b00000000000000000000000000110001#32 = .ok .cavlcDec4 ∧
    decode 0b00000000000000000000000000110010#32 = .ok .cavlcEnc2 ∧
    decode 0b00000000000000000000000000110011#32 = .ok .cavlcDec2 := by decide

theorem test_decode_transform :
    decode 0b00000000000000000000000001000000#32 = .ok .fwd4 ∧
    decode 0b00000000000000000000000001000001#32 = .ok .inv4 ∧
    decode 0b00000000000000000000000001000010#32 = .ok .fwdDc4 ∧
    decode 0b00000000000000000000000001000011#32 = .ok .invDc4 ∧
    decode 0b00000000000000000000000001000100#32 = .ok .fwdDc2 ∧
    decode 0b00000000000000000000000001000101#32 = .ok .invDc2 ∧
    decode 0b00000000000000000000000001000110#32 = .ok .qpc := by decide

theorem test_decode_macroblock :
    decode 0b00000000000000000000000001010000#32 = .ok .mbInit ∧
    decode 0b00000000000000000000000001010001#32 = .ok .mbEncode ∧
    decode 0b00000000000000000000000001010010#32 = .ok .mbDecode ∧
    decode 0b00000000000000000000000001010011#32 = .ok .mbSettype ∧
    decode 0b00000000000000000000000001010100#32 = .ok .mbUnpacktype ∧
    decode 0b00000000000000000000000001010101#32 = .ok .mbNc ∧
    decode 0b00000000000000000000000001010110#32 = .ok .mbMvp := by decide

/-- The table's numbering: 32 bits a row, one register. -/
theorem test_decode_table_word :
    decodeTableWord 32 0x56 = some .mbMvp ∧ decodeTableWord 32 0x100 = none ∧ decodeTableWord 32 0x57 = none := by
  decide

/-! ### System and bit stream -/

/-- V707: NOP keeps ERRACC. -/
theorem test_nop : (after .nop { fresh with status := 3, errAcc := 0x10A }).map (fun t => (t.status, t.errAcc)) =
    some (0, 0x10A) := by decide +kernel

/-- V711. -/
theorem test_clrerr : (after .clrerr { fresh with status := 4, errAcc := 0x13A }).map (fun t => (t.status, t.errAcc)) =
    some (0, 0) := by decide +kernel

/-- V2: the last byte of BSBUF. -/
theorem test_bs_bind : (after .bsBind (args (State.resetOf cfg) [8, 4095])).map
    (fun t => (t.status, t.bsBase, t.bsLen, t.bsPos)) = some (0, 4095, 8, 0) := by decide +kernel

/-- V1, V3. -/
theorem test_bs_bind_range : ends .bsBind (args (State.resetOf cfg) [-1, 0]) = some 5 ∧
    ends .bsBind (args (State.resetOf cfg) [9, 4095]) = some 5 := by decide +kernel

/-- V18. -/
theorem test_bs_reset : (after .bsReset { onBits 5 0x13 with bsPos := 5, bsLen := 32768 }).map
    (fun t => (t.bsPos, t.bsLen, memRead t.bsbuf 0)) = some (0, 32768, 0x98) := by decide +kernel

/-- V4; and the first bit of V9's bytes A5 0F. -/
theorem test_bs_read1 : seen 1 .bsRead1 { fresh with bsLen := 0 } = some (3, [0], 0) ∧
    seen 1 .bsRead1 (onBits 12 0xA50) = some (0, [1], 1) := by decide +kernel

/-- V8: thirty-two bits are one unsigned pattern. -/
theorem test_bs_readn : seen 1 .bsReadn (args (onBits 32 0xFFFFFFFF) [32]) = some (0, [-1], 32) := by decide +kernel

/-- V9: a read that would pass BS_LEN reads nothing. -/
theorem test_bs_readn_exhausted :
    seen 0 .bsReadn (args { onBits 12 0xA50 with bsPos := 8 } [5]) = some (3, [], 8) := by decide +kernel

/-- V12: a write across a byte boundary. -/
theorem test_bs_write : (after .bsWrite (args { fresh with bsPos := 6 } [4, 15])).map
    (fun t => (memRead t.bsbuf 0, memRead t.bsbuf 1, t.bsPos)) = some (0x03, 0xC0, 10) := by decide +kernel

/-- V14: the bits after the write keep their values. -/
theorem test_bs_write_keeps : (after .bsWrite (args { fresh with bsbuf := [(0, 0xFF#8)] } [2, 0])).map
    (fun t => (memRead t.bsbuf 0, t.bsPos)) = some (0x3F, 2) := by decide +kernel

/-! ### Exp-Golomb -/

/-- V114. -/
theorem test_ue_enc_largest : wrote 2 31 0xFFFF .ueEnc (args fresh [65534]) = some (0, [31, 65535], 31) := by
  decide +kernel

/-- V115, V116. -/
theorem test_ue_enc_range : ends .ueEnc (args fresh [65535]) = some 1 ∧ ends .ueEnc (args fresh [-1]) = some 5 := by
  decide +kernel

/-- V144. -/
theorem test_ue_dec_largest : seen 1 .ueDec (onBits 31 0xFFFF) = some (0, [65534], 31) := by decide +kernel

/-- V145, V146. -/
theorem test_ue_dec_errors : ends .ueDec (onBits 16 0) = some 1 ∧ ends .ueDec (onBits 4 1) = some 3 := by
  decide +kernel

/-- V121. -/
theorem test_se_enc_negative : wrote 2 5 0b00101 .seEnc (args fresh [-2]) = some (0, [5, 5], 5) := by decide +kernel

/-- V125, V127. -/
theorem test_se_enc_range : wrote 2 31 0xFFFF .seEnc (args fresh [-32767]) = some (0, [31, 65535], 31) ∧
    ends .seEnc (args fresh [-32768]) = some 1 := by decide +kernel

/-- V149, V150. -/
theorem test_se_dec : seen 1 .seDec (onBits 3 0b011) = some (0, [-1], 3) ∧
    seen 1 .seDec (onBits 5 0b00100) = some (0, [2], 5) := by decide +kernel

/-- V130, V134. -/
theorem test_te_enc : wrote 2 1 0 .teEnc (args fresh [1, 1]) = some (0, [1, 0], 1) ∧
    wrote 2 3 0b011 .teEnc (args fresh [2, 2]) = some (0, [3, 3], 3) := by decide +kernel

/-- V131, V136. -/
theorem test_te_enc_range : ends .teEnc (args fresh [2, 1]) = some 1 ∧ ends .teEnc (args fresh [1, 0]) = some 5 := by
  decide +kernel

/-- V154, V156. -/
theorem test_te_dec : seen 1 .teDec (args (onBits 1 0) [0, 1]) = some (0, [1], 1) ∧
    seen 1 .teDec (args (onBits 3 0b011) [0, 2]) = some (0, [2], 3) := by decide +kernel

/-- V157, V159. -/
theorem test_te_dec_errors : ends .teDec (args (onBits 5 0b00100) [0, 2]) = some 1 ∧
    ends .teDec (args (onBits 0 0) [0, 1]) = some 3 := by decide +kernel

/-! ### Codebooks -/

/-- V213, V222. -/
theorem test_ct_enc : wrote 2 16 0b0000000000001010 .ctEnc (args fresh [15, 1, 0]) = some (0, [16, 10], 16) ∧
    wrote 2 7 0 .ctEnc (args fresh [4, 3, -1]) = some (0, [7, 0], 7) := by decide +kernel

/-- V227, V231. -/
theorem test_ct_enc_range : ends .ctEnc (args fresh [2, 3, 0]) = some 1 ∧ ends .ctEnc (args fresh [1, 0, -3]) = some 5 := by
  decide +kernel

/-- V233, V242. -/
theorem test_ct_dec : seen 2 .ctDec (args (onBits 2 0b01) [0, 0, 0]) = some (0, [1, 1], 2) ∧
    seen 2 .ctDec (args (onBits 7 0) [0, 0, -1]) = some (0, [4, 3], 7) := by decide +kernel

/-- V239, V244. -/
theorem test_ct_dec_errors : ends .ctDec (args (onBits 6 0b000010) [0, 0, 8]) = some 1 ∧
    ends .ctDec (args (onBits 1 1) [0, 0, -3]) = some 5 := by decide +kernel

/-- V246, V253. -/
theorem test_tz4_enc : wrote 2 9 1 .tz4Enc (args fresh [15, 1]) = some (0, [9, 1], 9) ∧
    ends .tz4Enc (args fresh [2, 15]) = some 1 := by decide +kernel

/-- V258, V262. -/
theorem test_tz4_dec : seen 1 .tz4Dec (args (onBits 9 1) [0, 1]) = some (0, [15], 9) ∧
    ends .tz4Dec (args (onBits 1 1) [0, 16]) = some 1 := by decide +kernel

/-- V266, V272. -/
theorem test_tzc2_enc : wrote 2 3 0 .tzc2Enc (args fresh [3, 1]) = some (0, [3, 0], 3) ∧
    ends .tzc2Enc (args fresh [2, 3]) = some 1 := by decide +kernel

/-- The codewords of V266 and V268, read back. -/
theorem test_tzc2_dec : seen 1 .tzc2Dec (args (onBits 3 0) [0, 1]) = some (0, [3], 3) ∧
    seen 1 .tzc2Dec (args (onBits 2 0) [0, 2]) = some (0, [2], 2) := by decide +kernel

/-- V274, V277. -/
theorem test_tzc4_enc : wrote 2 5 0 .tzc4Enc (args fresh [7, 1]) = some (0, [5, 0], 5) ∧
    ends .tzc4Enc (args fresh [0, 8]) = some 1 := by decide +kernel

/-- The codewords of V274 and V276, read back. -/
theorem test_tzc4_dec : seen 1 .tzc4Dec (args (onBits 5 0) [0, 1]) = some (0, [7], 5) ∧
    seen 1 .tzc4Dec (args (onBits 1 1) [0, 7]) = some (0, [1], 1) := by decide +kernel

/-- V283, V287. -/
theorem test_rb_enc : wrote 2 3 0b100 .rbEnc (args fresh [6, 6]) = some (0, [3, 4], 3) ∧
    wrote 2 11 1 .rbEnc (args fresh [14, 20]) = some (0, [11, 1], 11) := by decide +kernel

/-- V294, V295. -/
theorem test_rb_dec : ends .rbDec (args (onBits 5 1) [0, 7]) = some 1 ∧
    seen 1 .rbDec (args (onBits 5 1) [0, 8]) = some (0, [8], 5) := by decide +kernel

/-- V303, V304. -/
theorem test_pfx_enc : wrote 2 32 1 .pfxEnc (args fresh [31]) = some (0, [32, 1], 32) ∧
    ends .pfxEnc (args fresh [32]) = some 1 := by decide +kernel

/-- V306, V307. -/
theorem test_pfx_dec : seen 1 .pfxDec (onBits 32 1) = some (0, [31], 32) ∧ ends .pfxDec (onBits 32 0) = some 1 := by
  decide +kernel

/-- V309, V311. -/
theorem test_cbp_enc : wrote 3 5 0b00100 .cbpEnc (args fresh [0, 1]) = some (0, [5, 4, 3], 5) ∧
    wrote 3 7 0b0001101 .cbpEnc (args fresh [47, 0]) = some (0, [7, 13, 12], 7) := by decide +kernel

/-- V321, V322. -/
theorem test_cbp_dec : ends .cbpDec (args (onBits 11 0b00000110001) [0, 0]) = some 1 ∧
    seen 1 .cbpDec (args (onBits 11 0b00000110000) [0, 0]) = some (0, [41], 11) := by decide +kernel

/-! ### CAVLC -/

/-- The block of E10 and V401. -/
def textbook : Vec16 := vec [0, 3, -1, 0, 0, -1, 1, 0, 1]

/-- V401. -/
theorem test_cavlc_enc4 : wrote 3 24 0b000010001110010111101101 .cavlcEnc4 (args { fresh with cb := textbook } [0, 0]) =
    some (0, [24, 5, 3], 24) := by decide +kernel

/-- V413: the escape of 43 R234. -/
theorem test_cavlc_enc4_escape :
    wrote 3 37 0b0001010000000000000000100111010011101 .cavlcEnc4 (args { fresh with cb := vec [3000] } [0, 0]) =
      some (0, [37, 1, 0], 37) := by decide +kernel

/-- V401, read back (P2 step 5). -/
theorem test_cavlc_dec4 :
    (after .cavlcDec4 (args (onBits 24 0b000010001110010111101101) [0, 0])).map (fun t => (t.status, t.cb)) =
      some (0, textbook) := by decide +kernel

/-- V432: with dcSkip 1, CB[0] is written 0. -/
theorem test_cavlc_dec4_skip :
    (after .cavlcDec4 (args { onBits 1 1 with cb := Vector.replicate 16 5 } [0, 1])).map (fun t => (t.status, t.cb)) =
      some (0, vec []) := by decide +kernel

/-- V426. -/
theorem test_cavlc_enc2 :
    wrote 3 28 0b0000011000010000000000010010 .cavlcEnc2 (args { fresh with cb := vec [12, 0, -3, 1] } [-1, 0]) =
      some (0, [28, 3, 1], 28) := by decide +kernel

/-- V426, read back: CB[4..15] keep their values (P2 step 6). -/
theorem test_cavlc_dec2 :
    (after .cavlcDec2 (args { onBits 28 0b0000011000010000000000010010 with cb := textbook } [-1, 0])).map
      (fun t => (t.status, t.cb)) = some (0, vec [12, 0, -3, 1, 0, -1, 1, 0, 1]) := by decide +kernel

/-! ### Transform -/

/-- The block of V507. -/
def samples : Vec16 := vec [10, -7, 3, 0, 25, 1, -9, 4, -30, 12, 6, -2, 8, 0, -5, 17]

/-- V507. -/
theorem test_fwd4 : (after .fwd4 (args { fresh with tb := samples } [1, 12])).map
    (fun t => (t.cb, t.getRes 0, t.getRes 1)) =
      some (vec [3, 0, 3, -1, 0, 6, 3, 5, 2, 0, 5, 3, -5, -7, -11, -1], 33, 13) := by decide +kernel

/-- V510, V513. -/
theorem test_fwd4_errors : ends .fwd4 (args { fresh with tb := Vector.replicate 16 0x40000000 } [0, 0]) = some 7 ∧
    ends .fwd4 (args fresh [8, 0]) = some 5 := by decide +kernel

/-- V514. -/
theorem test_inv4 : (after .inv4 (args { fresh with
      cb := vec [3, 0, 3, -1, 0, 6, 3, 5, 2, 0, 5, 3, -5, -7, -11, -1] } [1, 12])).map (fun t => t.tb) =
    some (vec [10, -7, 3, -1, 24, 1, -9, 3, -28, 10, 6, -1, 8, 0, -3, 16]) := by decide +kernel

/-- V517: a substituted DC term. -/
theorem test_inv4_dc : (after .inv4 (args { fresh with cb := vec [9, 1] } [3, 20, 640])).map (fun t => t.tb) =
    some (vec [12, 11, 9, 8, 12, 11, 9, 8, 12, 11, 9, 8, 12, 11, 9, 8]) := by decide +kernel

/-- V523. -/
theorem test_fwd_dc4 : (after .fwdDc4 (args { fresh with dcb := vec16 (fun k => toWord (16 * k)) } [5, 20])).map
    (fun t => (t.dcb, t.getRes 1)) = some (vec [18, -2, 0, -1, -10, 0, 0, 0, 0, 0, 0, 0, -5], 5) := by decide +kernel

/-- V526, V527: below QP 36 and from it on. -/
theorem test_inv_dc4 :
    (after .invDc4 (args { fresh with dcb := vec [4] } [1, 35])).map (fun t => t.dcb) = some (Vector.replicate 16 576) ∧
    (after .invDc4 (args { fresh with dcb := vec [4] } [1, 36])).map (fun t => t.dcb) =
      some (Vector.replicate 16 640) := by decide +kernel

/-- V532, with DCB[4] kept. -/
theorem test_fwd_dc2 : (after .fwdDc2 (args { fresh with dcb := vec [100, 50, -20, 10, 7] } [5, 30])).map
    (fun t => (t.dcb, t.getRes 1)) = some (vec [1, 0, 1, 0, 7], 2) := by decide +kernel

/-- V533, V534. -/
theorem test_inv_dc2 :
    (after .invDc2 (args { fresh with dcb := vec [1, 0, 1, 0] } [1, 0])).map (fun t => t.dcb) = some (vec [10, 10, 0, 0]) ∧
    (after .invDc2 (args { fresh with dcb := vec [1, 0, 1, 0] } [1, 39])).map (fun t => t.dcb) =
      some (vec [896, 896, 0, 0]) := by decide +kernel

/-- V537: its entries for 30 and 51; V538. -/
theorem test_qpc : seen 1 .qpc (args fresh [30]) = some (0, [29], 0) ∧ seen 1 .qpc (args fresh [51]) = some (0, [39], 0) ∧
    ends .qpc (args fresh [52]) = some 5 := by decide +kernel

/-! ### Macroblocks -/

/-- V637 with MAX_MBW = 3, and a grid in range. -/
theorem test_mb_init : ends .mbInit (args fresh [4, 1]) = some 5 ∧
    (after .mbInit (args fresh [2, 1])).map (fun t => (t.gridW, t.gridH, t.gridValid)) = some (2, 1, true) := by
  decide +kernel

/-- V651: the stream is too short, and CAUSE says so. -/
theorem test_mb_encode_fails : (after .mbEncode (args { grid1 with bsLen := 3 } (intraArgs 0))).map
    (fun t => (t.status, (t.record 0).done)) = some (0x409, false) := by decide +kernel

/-- V653: six bits; the record is the first of its grid. -/
theorem test_mb_encode : wrote 4 6 0b010111 .mbEncode (args { grid1 with bsLen := 4096 } (intraArgs 0)) =
    some (0, [6, 1, 0, 26], 6) := by decide +kernel

/-- The bits of V653, read back. -/
theorem test_mb_decode : seen 4 .mbDecode (args { onBits 6 0b010111 with gridW := 1, gridH := 1, gridValid := true }
    (intraArgs 0)) = some (0, [6, 1, 0, 26], 6) := by decide +kernel

/-- V659. -/
theorem test_mb_decode_fails :
    ends .mbDecode (args { onBits 15 0b010100000110100 with gridW := 1, gridH := 1, gridValid := true } (intraArgs 0)) =
      some 0x209 := by decide +kernel

/-- V608, V612. -/
theorem test_mb_settype : seen 1 .mbSettype (args fresh [0, 1, 3, 47]) = some (0, [29], 0) ∧
    ends .mbSettype (args fresh [2, 1, 0, 5]) = some 1 := by decide +kernel

/-- V617, V630, V631. -/
theorem test_mb_unpacktype : seen 3 .mbUnpacktype (args fresh [2, 12]) = some (0, [1, 3, 32], 0) ∧
    ends .mbUnpacktype (args fresh [0, 30]) = some 6 ∧ ends .mbUnpacktype (args fresh [0, 31]) = some 1 := by
  decide +kernel

/-- MBS[0] of V802, as far as V803 and V804 read it. -/
def coded0 : MbRecord :=
  { MbRecord.fresh with
    done := true
    mvx := 4
    mvy := toWord (-2)
    tcy := vec [3, 3, 4, 3, 3, 4, 3, 4, 4, 3, 2, 4, 3, 3, 3, 3] }

/-- V804, V641. -/
theorem test_mb_nc : seen 1 .mbNc (args (grid2.setRecord 0 coded0) [1, 0, 0]) = some (0, [4], 0) ∧
    ends .mbNc (args grid2 [1, 0, 0]) = some 10 := by decide +kernel

/-- V803, V642. -/
theorem test_mb_mvp : seen 2 .mbMvp (args (grid2.setRecord 0 coded0) [1]) = some (0, [4, -2], 0) ∧
    ends .mbMvp (args grid2 [3]) = some 10 := by decide +kernel

/-! ### The hypotheses of the statements are met

One theorem for each statement that has hypotheses, named after it: a concrete state and operands for every clause,
at the ends of its range. -/

/-- A state whose host writes `w` to CMD next. -/
def issuing (w : Word) : State := { fresh with pending := [.write .cmd .word w] }

theorem test_hyps_CommandWordDecides :
    (issuing 0x56#32).pending = .write .cmd .word 0x56#32 :: [] ∧ decode 0x56#32 = .ok .mbMvp ∧
    256 ≤ (0x100#32).toNat ∧ (0x57#32).toNat % 256 ∉ definedOpcodes ∧
    (0x56#32).toNat < 256 ∧ (0x56#32).toNat ∈ definedOpcodes := by decide

theorem test_hyps_StepRunsDecodedCommand : decode 0x00#32 = .ok .nop ∧ decode 0x56#32 = .ok .mbMvp := by decide

theorem test_hyps_CommandsKeepHostState : exec .clrerr fresh = .next { fresh with status := 0, errAcc := 0 } := rfl

theorem test_hyps_WrittenOnlyByNamedCommands : ∃ t u, exec .cavlcDec2 (args (onBits 2 1) [-1]) = .next t ∧
    exec .invDc2 (args fresh [0]) = .next u ∧ t.status = 0 ∧ u.status = 0 := ⟨_, _, rfl, rfl, by decide +kernel⟩

theorem test_hyps_ResOnlyNamed : ∃ t, exec .mbEncode (args { grid1 with bsLen := 6 } (intraArgs 0)) = .next t ∧
    t.status = 0 ∧ (11 < 16 ∧ 11 ≤ 11) := ⟨_, rfl, by decide +kernel⟩

/-- Each of the codes 5, 6, 10 and 11, and a clean error of another code. -/
theorem test_hyps_CleanErrorsChangeNothing :
    ends .qpc (args fresh [52]) = some 5 ∧ ends .mbSettype (args fresh [1]) = some 6 ∧
    ends .mbMvp (args grid2 [3]) = some 10 ∧ ends .mbMvp fresh = some 11 ∧
    ends .bsRead1 { fresh with bsLen := 0 } = some 3 ∧
    (ends .ueDec (onBits 0 0) = some 3 ∧ ends .cavlcDec4 (args (onBits 0 0) [0, 0]) = some 3 ∧
      ends .cavlcEnc4 (args (onBits 0 0) [0, 0]) = some 4 ∧ ¬ (onBits 0 0).Room 1) := by
  unfold State.Room; decide +kernel

/-- 60 R410: with no bit for the first read, or none for all of coeff_token, nothing but STATUS and ERRACC changes. -/
theorem test_first_access_clean :
    after .ueDec { onBits 0 0 with res := vec [7] } = some ({ onBits 0 0 with res := vec [7] }.endsClean 3) ∧
    after .cavlcDec4 (args { onBits 0 0 with cb := vec [5] } [0, 0]) =
      some ((args { onBits 0 0 with cb := vec [5] } [0, 0]).endsClean 3) ∧
    after .cavlcEnc4 (args { onBits 5 3 with cb := vec [2] } [0, 0]) =
      some ((args { onBits 5 3 with cb := vec [2] } [0, 0]).endsClean 4) := by decide +kernel

theorem test_hyps_FailedCommandKeeps :
    ends .ueDec (onBits 16 0) = some 1 ∧ (onBits 16 0).bsPos.toNat ≤ (onBits 16 0).bsLen.toNat ∧
    ends .mbEncode (args { grid1 with bsLen := 3 } (intraArgs 0)) = some 0x409 ∧ statusErr 0x409#32 = 9 := by
  decide +kernel

theorem test_hyps_StreamWritesBounded : ends .bsWrite (args { fresh with bsLen := 5, bsPos := 3 } [2, 3]) = some 0 := by
  decide +kernel

/-- Two buffers that agree on a stream of nine bits and differ in the bit after it. -/
theorem test_hyps_StreamReadsBounded :
    (∀ p < (onBits 9 0x155).bsLen.toNat, { (onBits 9 0x155).stream with buf := [(0, 0xAA#8), (1, 0xC0#8)] }.bit p =
      (onBits 9 0x155).stream.bit p) ∧
    (onBits 9 0x155).bsbuf ≠ [(0, 0xAA#8), (1, 0xC0#8)] ∧
    ends .bsReadn (args (onBits 9 0x155) [9]) = some 0 := by decide +kernel

/-- n = -1 and 33; n = 32 with and without room; n = 0 at the end of the stream. -/
theorem test_hyps_BsReadReads :
    (args fresh [-1]).argInt 0 < 0 ∧ 32 < (args fresh [33]).argInt 0 ∧
    ((args fresh [32]).argInt 0 = (32 : Nat) ∧ (args fresh [32]).Room 32) ∧
    ¬ (args { fresh with bsLen := 31 } [32]).Room 32 ∧
    ((args { fresh with bsLen := 0 } [0]).argInt 0 = (0 : Nat) ∧ (args { fresh with bsLen := 0 } [0]).Room 0) ∧
    ¬ ({ fresh with bsLen := 0 } : State).Room 1 ∧ ({ fresh with bsLen := 1 } : State).Room 1 := by
  unfold State.Room; decide +kernel

theorem test_hyps_BsWriteWrites :
    (args fresh [-1]).argInt 0 < 0 ∧ 32 < (args fresh [33]).argInt 0 ∧
    ((args fresh [32, -1]).argInt 0 = (32 : Nat) ∧ (args fresh [32, -1]).Room 32) ∧
    ¬ (args { fresh with bsLen := 31 } [32]).Room 32 := by unfold State.Room; decide +kernel

theorem test_hyps_BsWriteThenRead : (args { fresh with bsLen := 32 } [32, -1]).argInt 0 = (32 : Nat) ∧
    (args { fresh with bsLen := 32 } [32, -1]).Room 32 := by unfold State.Room; decide +kernel

/-- The values at each end, with just room enough and with one bit too few. -/
theorem test_hyps_UeEncWrites :
    (args fresh [-1]).argInt 0 < 0 ∧ 65534 < (args fresh [65535]).argInt 0 ∧
    ((args { fresh with bsLen := 1 } [0]).argInt 0 = (0 : Nat) ∧
      (args { fresh with bsLen := 1 } [0]).Room (ueBits 0).length) ∧
    ((args { fresh with bsLen := 31 } [65534]).argInt 0 = (65534 : Nat) ∧
      (args { fresh with bsLen := 31 } [65534]).Room (ueBits 65534).length) ∧
    ¬ (args { fresh with bsLen := 30 } [65534]).Room (ueBits 65534).length := by unfold State.Room; decide +kernel

/-- A stream with no bit left holds no code. -/
theorem cut_short (s : State) (h : s.bsLen.toNat ≤ s.bsPos.toNat) : s.UeCutShort := by
  constructor
  · intro v _ hv
    have hl : (ueBits v).length ≠ 0 := by simp [ueBits]
    have h1 := hv.1
    omega
  · intro hz
    have h1 := hz.1
    simp only [List.length_replicate] at h1
    omega

/-- The code of 65534, sixteen zero bits, and a stream too short for any code. -/
theorem test_hyps_UeDecReads :
    (onBits 31 0xFFFF).Holds (ueBits 65534) ∧ (onBits 16 0).Holds (List.replicate 16 false) ∧
    (onBits 0 0).UeCutShort := by
  refine ⟨?_, ?_, cut_short _ (by decide +kernel)⟩ <;> (unfold State.Holds; decide +kernel)

theorem test_hyps_SeCommands :
    (args fresh [-32768]).argInt 0 < -32767 ∧ 32767 < (args fresh [32768]).argInt 0 ∧
    (((65533 : Nat) : Int) = (if 0 < (32767 : Int) then 2 * 32767 - 1 else -2 * 32767) ∧
      (args fresh [32767]).argInt 0 = 32767 ∧ (args fresh [32767]).Room (ueBits 65533).length ∧
      ¬ (args { fresh with bsLen := 30 } [32767]).Room (ueBits 65533).length ∧
      (onBits 31 0xFFFE).Holds (ueBits 65533)) ∧
    (((65534 : Nat) : Int) = (if 0 < (-32767 : Int) then 2 * (-32767) - 1 else -2 * (-32767)) ∧
      (args fresh [-32767]).argInt 0 = -32767 ∧ (onBits 31 0xFFFF).Holds (ueBits 65534)) ∧
    (onBits 16 0).Holds (List.replicate 16 false) ∧ (onBits 0 0).UeCutShort := by
  refine ⟨?_, ?_, ?_, ?_, ?_, cut_short _ (by decide +kernel)⟩ <;> (try unfold State.Room) <;> (try unfold State.Holds) <;> decide +kernel

theorem test_hyps_TeEncWrites :
    (args fresh [0, 0]).argInt 1 < 1 ∧
    (1 ≤ (args fresh [2, 1]).argInt 1 ∧ (args fresh [2, 1]).argInt 1 < (args fresh [2, 1]).argInt 0) ∧
    ((args fresh [1, 1]).argInt 1 = 1 ∧ (args fresh [1, 1]).argInt 0 = (1 : Nat)) ∧
    (2 ≤ (args fresh [65534, 65534]).argInt 1 ∧ (args fresh [65534, 65534]).argInt 0 = (65534 : Nat) ∧
      (args fresh [65534, 65534]).Room (ueBits 65534).length ∧
      ¬ (args { fresh with bsLen := 30 } [65534, 65534]).Room (ueBits 65534).length) := by
  unfold State.Room; decide +kernel

theorem test_hyps_TeDecReads :
    (args fresh [0, 0]).argInt 1 < 1 ∧ ((args fresh [0, 1]).argInt 1 = 1 ∧ (args fresh [0, 1]).Room 1) ∧
    ¬ (args (onBits 0 0) [0, 1]).Room 1 ∧
    (2 ≤ (args (onBits 3 0b011) [0, 2]).argInt 1 ∧ (args (onBits 3 0b011) [0, 2]).Holds (ueBits 2)) ∧
    (2 < 3 ∧ (args (onBits 5 0b00100) [0, 2]).Holds (ueBits 3)) ∧
    (args (onBits 16 0) [0, 2]).Holds (List.replicate 16 false) ∧ (args (onBits 0 0) [0, 2]).UeCutShort := by
  refine ⟨?_, ?_, ?_, ?_, ?_, ?_, cut_short _ (by decide +kernel)⟩ <;> (try unfold State.Room) <;> (try unfold State.Holds) <;> decide +kernel

/-- Each class at the ends of its contexts, and symbols in and out of its domain. -/
theorem test_hyps_CtEncWrites :
    (args fresh [0, 0, -3]).argInt 2 < -2 ∧
    (CtClass.Has .cM2 (-2) ∧ CtClass.Has .cM1 (-1) ∧ CtClass.Has .c01 0 ∧ CtClass.Has .c01 1 ∧ CtClass.Has .c23 2 ∧
      CtClass.Has .c23 3 ∧ CtClass.Has .c47 4 ∧ CtClass.Has .c47 7 ∧ CtClass.Has .c8 8 ∧ CtClass.Has .c8 2147483647) ∧
    (maxTc .c01 : Int) < (args fresh [17, 0, 0]).argInt 0 ∧
    ((args fresh [16, 3, 0]).argInt 0 = (16 : Nat) ∧ (args fresh [16, 3, 0]).argInt 1 = (3 : Nat) ∧
      16 ≤ maxTc .c01 ∧ (args fresh [16, 3, 0]).argInt 2 = 0) := by
  refine ⟨by decide, ?_, by decide, by decide⟩
  simp [CtClass.Has]

theorem test_hyps_CtDecReads :
    (args fresh [0, 0, -3]).argInt 2 < -2 ∧ (CtClass.Has .cM1 (-1) ∧ ((4, 3), ⟨7, 0⟩) ∈ ctTable .cM1 ∧
      (args (onBits 7 0) [0, 0, -1]).Holds (codewordBits ⟨7, 0⟩)) ∧
    (∀ e ∈ ctTable .c8, ¬ (args (onBits 6 0b000010) [0, 0, 8]).Holds (codewordBits e.2)) := by
  unfold State.Holds CtClass.Has; decide +kernel

theorem test_hyps_TotalZerosEncWrites :
    ((args fresh [0, 16]).argInt 1 > (15 : Nat) ∧ (args fresh [0, 4]).argInt 1 > (3 : Nat) ∧
      (args fresh [0, 8]).argInt 1 > (7 : Nat)) ∧
    ((args fresh [1, 15]).argInt 0 = (1 : Nat) ∧ (args fresh [1, 15]).argInt 1 = (15 : Nat) ∧ 1 + 15 ≤ 16 ∧ 15 ≤ 15) ∧
    ((args fresh [3, 1]).argInt 0 = (3 : Nat) ∧ 3 + 1 ≤ 4) ∧ ((args fresh [1, 7]).argInt 1 = (7 : Nat) ∧ 1 + 7 ≤ 8) := by
  decide

theorem test_hyps_TotalZerosDecReads :
    ((args fresh [0, 0]).argInt 1 < 1 ∧ (args fresh [0, 16]).argInt 1 > (15 : Nat)) ∧
    ((args (onBits 9 1) [0, 1]).argInt 1 = (1 : Nat) ∧ (15, ⟨9, 1⟩) ∈ tz4 1 ∧
      (args (onBits 9 1) [0, 1]).Holds (codewordBits ⟨9, 1⟩)) ∧
    (∀ e ∈ tz4 1, ¬ (args (onBits 9 0) [0, 1]).Holds (codewordBits e.2)) := by unfold State.Holds; decide +kernel

theorem test_hyps_RunBeforeCommands :
    (args fresh [0, 0]).argInt 1 < 1 ∧ (args fresh [8, 7]).argInt 1 < (args fresh [8, 7]).argInt 0 ∧
    14 < (args fresh [15, 20]).argInt 0 ∧
    ((args fresh [14, 14]).argInt 0 = (14 : Nat) ∧ (args fresh [14, 14]).argInt 1 = (14 : Nat)) ∧
    ((args (onBits 5 1) [0, 8]).argInt 1 = (8 : Nat) ∧ (8, ⟨5, 1⟩) ∈ runBefore (min 8 7) ∧
      (args (onBits 5 1) [0, 8]).Holds (codewordBits ⟨5, 1⟩)) ∧
    ((args (onBits 5 1) [0, 7]).argInt 1 = (7 : Nat) ∧ (args (onBits 5 1) [0, 7]).Holds (codewordBits ⟨5, 1⟩)) ∧
    (∀ e ∈ runBefore (min 14 7), ¬ (args (onBits 11 0) [0, 14]).Holds (codewordBits e.2)) := by
  unfold State.Holds; decide +kernel

theorem test_hyps_LevelPrefixCommands :
    (args fresh [-1]).argInt 0 < 0 ∧ 31 < (args fresh [32]).argInt 0 ∧ (args fresh [31]).argInt 0 = (31 : Nat) ∧
    (onBits 32 1).Holds (List.replicate 31 false ++ [true]) ∧ (onBits 32 0).Holds (List.replicate 32 false) ∧
    ((onBits 31 0).Holds (List.replicate 31 false) ∧ ¬ (onBits 31 0).Room 32) := by
  unfold State.Room State.Holds; decide +kernel

theorem test_hyps_CbpCommands :
    ((args fresh [0, 2]).argInt 1 ≠ 0 ∧ (args fresh [0, 2]).argInt 1 ≠ 1) ∧
    ((args fresh [48, 1]).argInt 1 = 1 ∧ 47 < (args fresh [48, 1]).argInt 0) ∧
    ((args fresh [47, 0]).argInt 1 = 0 ∧ (args fresh [47, 0]).argInt 0 = (47 : Nat) ∧ cbpTab false 12 = 47 ∧
      (args fresh [47, 0]).Room (ueBits 12).length ∧ ¬ (args { fresh with bsLen := 6 } [47, 0]).Room (ueBits 12).length) ∧
    ((args (onBits 11 0b00000110000) [0, 0]).Holds (ueBits 47) ∧
      (args (onBits 11 0b00000110001) [0, 0]).Holds (ueBits 48)) ∧
    (args (onBits 16 0) [0, 1]).Holds (List.replicate 16 false) ∧ (args (onBits 0 0) [0, 1]).UeCutShort := by
  refine ⟨?_, ?_, ?_, ?_, ?_, cut_short _ (by decide +kernel)⟩ <;> (try unfold State.Room) <;> (try unfold State.Holds) <;> decide +kernel

/-- Both ends of the shortest forms of a level code, and the longest (V414: the levelCode of 2^27, less 2). -/
theorem test_hyps_LevelCodeInverse : levelCode 0 0 = .ok (0, 0, 0) ∧ levelCode 29 0 = .ok (14, 15, 4) ∧
    levelCode 959 6 = .ok (14, 63, 6) ∧ levelCode 268435452 0 = .ok (31, 4062, 28) := by decide +kernel

theorem test_hyps_CavlcEncWrites :
    ((args { fresh with cb := vec [134217728] } [0, 0]).argInt 1 = (0 : Nat) ∧
      ∀ k < 16, (vecInt (vec [134217728]) k).natAbs ≤ 2 ^ 27) ∧
    ((args fresh [16, 1]).argInt 1 = (1 : Nat) ∧ 0 ≤ (args fresh [16, 1]).argInt 0) ∧
    ((args fresh [-1]).argInt 0 = -1 ∧ (args fresh [-1]).argInt 1 = 0) ∧
    ((args fresh [0, 2]).argInt 1 ≠ 0 ∧ (args fresh [0, 2]).argInt 1 ≠ 1) ∧ (args fresh [0, 0]).argInt 0 ≠ -1 := by
  decide +kernel

/-- A level R234 cannot code, 2^28 and V415's 2^30, after a coeff_token that fits or does not. -/
theorem test_hyps_CavlcEncWrites_raise :
    (args { fresh with cb := vec [1073741824] } [0, 0]).BlockOperands true 16 0 ∧
    (args { fresh with cb := vec [0, 268435456] } [-1, 0]).BlockOperands false 4 (-1) ∧
    (args { fresh with cb := vec [1073741824] } [0, 0]).Room 1024 ∧
    (2 ^ 28 ≤ (vecInt (vec [1073741824]) (zigzag.getD 0 0)).natAbs ∧ 2 ^ 28 ≤ (vecInt (vec [0, 268435456]) 1).natAbs) ∧
    (cavlcItems [268435456, 0, 0, 0] 4 (-1) =
        [codecStep (coeffToken 1 0 (-1))] ++ .error .codecError :: [codecStep (tzCode 4 0 1)] ∧
      itemsBits [codecStep (coeffToken 1 0 (-1))] = some (bitsOf 6 0b000111) ∧
      (onBits 6 0).Room 6 ∧ ¬ (onBits 5 0).Room 6 ∧
      cavlcItems [268435456, 0, 0, 0] 4 (-1) =
        .ok ⟨6, 7⟩ :: [.error .codecError, codecStep (tzCode 4 0 1)]) := by
  unfold State.BlockOperands State.Room
  exact ⟨⟨by decide +kernel, by decide +kernel, 0, by decide, by decide +kernel, rfl⟩, by decide +kernel,
    by decide +kernel, by decide +kernel, by decide +kernel⟩

/-- The textbook block of E10, and the 2x2 block of V426. -/
theorem test_hyps_CavlcDecReads :
    ((onBits 24 0b000010001110010111101101).Holds (bitsOf 24 0b000010001110010111101101) ∧
      itemsBits (cavlcItems [0, 3, 0, 1, -1, -1, 0, 1, 0, 0, 0, 0, 0, 0, 0, 0] 16 0) =
        some (bitsOf 24 0b000010001110010111101101)) ∧
    ((onBits 28 0b0000011000010000000000010010).Holds (bitsOf 28 0b0000011000010000000000010010) ∧
      itemsBits (cavlcItems [12, 0, -3, 1] 4 (-1)) = some (bitsOf 28 0b0000011000010000000000010010)) := by
  unfold State.Holds; decide +kernel

/-- The operands of the two commands; a block cut short (V431); a stream with no coeff_token (V429); a TotalCoeff above
maxNumCoeff (V430). -/
theorem test_hyps_CavlcDecStops :
    ((args fresh [0, 1]).BlockOperands true 15 0 ∧ (args fresh [-1]).BlockOperands false 4 (-1)) ∧
    seen 3 .cavlcDec4 (args (onBits 24 0b000010001110010111101101) [0, 0]) = some (0, [24, 5, 3], 24) ∧
    (CtClass.Has .c01 0 ∧ ∀ e ∈ ctTable .c01, ¬ (args (onBits 17 1) [0, 1]).Holds (codewordBits e.2)) ∧
    (((16, 3), ⟨16, 8⟩) ∈ ctTable .c01 ∧
      (args (onBits 44 0b00000000000010000001101010101010101010101010) [0, 1]).Holds (codewordBits ⟨16, 8⟩)) := by
  unfold State.BlockOperands State.Holds CtClass.Has
  exact ⟨⟨⟨by decide +kernel, by decide +kernel, 1, by decide, by decide +kernel, rfl⟩, by decide +kernel⟩,
    by decide +kernel, ⟨Or.inl rfl, by decide +kernel⟩, by decide +kernel⟩

/-- One coefficient with a level_prefix of thirty-two zero bits; with a stream that holds no total_zeros; with total_zeros
15 where fourteen zeros fit; and two with total_zeros 7, then no run_before, or run_before 8. -/
theorem test_hyps_CavlcDecStops_inner :
    (HeadOk [] [] ∧ HeadOk [1] [] ∧ HeadOk [1, 1] []) ∧
    (itemsBits (headItems 0 1 [] []) = some (bitsOf 6 0b000101) ∧
      ((onBits 38 0b00010100000000000000000000000000000000).past (bitsOf 6 0b000101)).Holds (List.replicate 32 false)) ∧
    (itemsBits (headItems 0 1 [1] []) = some (bitsOf 3 0b010) ∧
      (∀ e ∈ tzTable 16 1, ¬ ((onBits 12 0b010000000000).past (bitsOf 3 0b010)).Holds (codewordBits e.2)) ∧
      (15, ⟨9, 1⟩) ∈ tzTable 15 1 ∧ ((onBits 12 0b010000000001).past (bitsOf 3 0b010)).Holds (codewordBits ⟨9, 1⟩)) ∧
    (itemsBits (headItems 0 2 [1, 1] []) = some (bitsOf 5 0b00100) ∧ (7, ⟨4, 3⟩) ∈ tzTable 16 2 ∧
      itemsBits (runItems 7 []) = some [] ∧
      (∀ e ∈ rbTable 7, ¬ ((onBits 20 0b00100001100000000000).past (bitsOf 9 0b001000011)).Holds (codewordBits e.2)) ∧
      (8, ⟨5, 1⟩) ∈ rbTable 7 ∧ ((onBits 14 0b00100001100001).past (bitsOf 9 0b001000011)).Holds (codewordBits ⟨5, 1⟩)) := by
  unfold State.Holds HeadOk
  exact ⟨by decide +kernel, by decide +kernel, by decide +kernel, by decide +kernel⟩

theorem test_hyps_CavlcRoundTrip : ends .cavlcEnc4 (args { fresh with cb := textbook } [0, 1]) = some 0 ∧
    ends .cavlcEnc2 (args { fresh with cb := textbook } [-1, 0]) = some 0 := by decide +kernel

/-- Samples of the largest magnitude at QP 0, and a QP and a flag out of range. -/
theorem test_hyps_Fwd4Transforms :
    8 ≤ ((args fresh [8]).getArg 0).toNat ∧ ((args fresh [1, 52]).argFlag 0 0 = true ∧ 51 < (args fresh [1, 52]).argInt 1) ∧
    (((args fresh [7, 51]).getArg 0).toNat < 8 ∧ (args fresh [7, 51]).argInt 1 = 51) ∧
    (∀ k < 16, (vecInt ({ fresh with tb := Vector.replicate 16 4096 } : State).tb k).natAbs ≤ 4096) := by
  decide +kernel

theorem test_hyps_Inv4Transforms :
    4 ≤ ((args fresh [4]).getArg 0).toNat ∧ ((args fresh [1, -1]).argFlag 0 0 = true ∧ (args fresh [1, -1]).argInt 1 < 0) ∧
    (((args fresh [3, 51, 67108864]).getArg 0).toNat < 4 ∧ (args fresh [3, 51, 67108864]).argFlag 0 1 = true ∧
      ((args fresh [3, 51, 67108864]).argInt 2).natAbs ≤ 2 ^ 26) ∧
    (∀ k < 16, (vecInt (Vector.replicate 16 (8192 : Word)) k).natAbs ≤ 2 ^ 13) := by decide +kernel

theorem test_hyps_FwdDc4Transforms :
    ((args fresh [2]).getArg 0).toNat ∉ [0, 1, 4, 5] ∧
    ((args fresh [5, 52]).argFlag 0 0 = true ∧ 51 < (args fresh [5, 52]).argInt 1) ∧
    (((args fresh [5, 51]).getArg 0).toNat ∈ [0, 1, 4, 5] ∧ (args fresh [5, 51]).argInt 1 ≤ 51) ∧
    (∀ k < 16, (vecInt (Vector.replicate 16 (8192 : Word)) k).natAbs ≤ 2 ^ 13) := by decide +kernel

theorem test_hyps_InvDc4Transforms :
    2 ≤ ((args fresh [2]).getArg 0).toNat ∧ ((args fresh [1, 52]).argFlag 0 0 = true ∧ 51 < (args fresh [1, 52]).argInt 1) ∧
    (((args fresh [1, 51]).getArg 0).toNat < 2 ∧ (args fresh [1, 51]).argInt 1 ≤ 51) ∧
    (∀ k < 16, (vecInt (Vector.replicate 16 (65536 : Word)) k).natAbs ≤ 2 ^ 16) := by decide +kernel

theorem test_hyps_Dc2Transforms :
    ((args fresh [2]).getArg 0).toNat ∉ [0, 1, 4, 5] ∧
    ((args fresh [1, 52]).argFlag 0 0 = true ∧ 51 < (args fresh [1, 52]).argInt 1) ∧
    (((args fresh [5, 51]).getArg 0).toNat ∈ [0, 1, 4, 5] ∧ ((args fresh [1, 51]).getArg 0).toNat < 2) ∧
    (∀ k < 4, (vecInt (Vector.replicate 16 (16384 : Word)) k).natAbs ≤ 2 ^ 14) ∧
    (∀ k < 4, (vecInt (Vector.replicate 16 (4096 : Word)) k).natAbs ≤ 2 ^ 12) := by decide +kernel

theorem test_hyps_QpcLooksUp : (args fresh [-1]).argInt 0 < 0 ∧ 51 < (args fresh [52]).argInt 0 ∧
    (0 ≤ (args fresh [0]).argInt 0 ∧ (args fresh [51]).argInt 0 ≤ 51) := by decide

theorem test_hyps_MbInitSetsGrid :
    ¬ (1 ≤ (args fresh [0, 1]).argInt 0) ∧ ¬ ((args fresh [1, 4]).argInt 1 ≤ fresh.cfg.maxMbh) ∧
    (1 ≤ (args fresh [3, 1]).argInt 0 ∧ (args fresh [3, 1]).argInt 0 ≤ fresh.cfg.maxMbw ∧
      1 ≤ (args fresh [3, 1]).argInt 1 ∧ (args fresh [3, 1]).argInt 1 ≤ fresh.cfg.maxMbh) := by decide +kernel

theorem test_hyps_MbSettypePacks :
    ((args fresh [1]).argInt 0 ≠ 0 ∧ (args fresh [1]).argInt 0 ≠ 2) ∧
    ((args fresh [2, 0]).argInt 0 = 2 ∧ (args fresh [2, 0]).argInt 1 = 0) ∧
    ((args fresh [0, 0, 9, 99]).argInt 0 = 0 ∧ (args fresh [0, 0, 9, 99]).argInt 1 = 0) ∧
    ((args fresh [2, 1, 0, 48]).argInt 1 = 1 ∧ 47 < (args fresh [2, 1, 0, 48]).argInt 3) ∧
    ((args fresh [2, 1, 3, 47]).argInt 2 = 3 ∧ (args fresh [2, 1, 3, 47]).argInt 3 % 16 = 15) := by decide

/-- The I and the P mb_type values at which the outcome changes. -/
theorem test_hyps_MbUnpacktypeUnpacks :
    ((args fresh [3]).argInt 0 ≠ 0 ∧ (args fresh [3]).argInt 0 ≠ 2) ∧
    ((args fresh [2, -1]).argInt 1 < 0 ∧ 24 < (args fresh [2, 26]).argInt 1 - 1 ∧ 24 < (args fresh [0, 31]).argInt 1 - 6) ∧
    ((args fresh [0, 0]).argInt 1 = 0 ∧ (args fresh [0, 5]).argInt 1 ≤ 5 ∧ (args fresh [2, 25]).argInt 1 - 1 = 24) ∧
    ((args fresh [2, 1]).argInt 1 - 1 = 0 ∧ (args fresh [0, 29]).argInt 1 - 6 = 23) := by decide

theorem test_hyps_MbTypeRoundTrip : ends .mbSettype (args fresh [0, 1, 3, 47]) = some 0 ∧
    ends .mbSettype (args fresh [0, 0]) = some 0 := by decide +kernel

/-- The grid commands' checks, in their order. -/
theorem test_hyps_GridCommandChecks :
    fresh.gridValid = false ∧ (grid2.gridValid = true ∧ ¬ (args grid2 [4]).OnGrid) ∧
    ((args grid2 [3, 0, 1]).OnGrid ∧ (args grid2 [3, 0, 1]).argInt 2 ≠ 0 ∧ (args grid2 [3, 0, 1]).argInt 2 ≠ 2) ∧
    ((args grid2 [0, 0, 2, 52, 1]).OnGrid ∧ ¬ (args grid2 [0, 0, 2, 52, 1]).EncodeOperandsOk) ∧
    ((args grid2 (intraArgs 1)).EncodeOperandsOk ∧ ¬ (args grid2 (intraArgs 1)).InOrder (args grid2 (intraArgs 1)).mArg) ∧
    51 < (args grid2 [0, 0, 2, 0, 0, 0, 0, 0, 0, 52]).argInt 9 ∧
    ¬ (args grid2 [3]).NeighboursDone (args grid2 [3]).mArg := by
  unfold State.OnGrid State.EncodeOperandsOk State.InOrder State.NeighboursDone
  refine ⟨by decide +kernel, by decide +kernel, by decide +kernel, by decide +kernel, ⟨by decide +kernel, ?_⟩,
    by decide +kernel, ?_⟩
  · exact fun h => absurd (h.2.1 (-1, 0) (by decide) 0 (by decide +kernel)) (by decide +kernel)
  · exact fun h => absurd (h (-1, 0) (by decide) 2 (by decide +kernel)) (by decide +kernel)

/-- A position outside the grid is no neighbour. -/
theorem not_some {o : Option Nat} {n : Nat} (h : o = none) (hn : o = some n) : False := by
  rw [h] at hn; cases hn

/-- Macroblock 0, whose neighbours lie outside the grid, and macroblock 1 beside a coded macroblock 0. -/
theorem test_hyps_MbNcQueries :
    (args grid2 [0, 3, 0]).OnGrid ∧ 2 < (args grid2 [0, 3, 0]).argInt 1 ∧
    (Comp.across .luma * Comp.across .luma : Nat) ≤ (args grid2 [0, 0, 16]).argInt 2 ∧
    ((args grid2 [0, 2, 3]).argInt 1 = 2 ∧ (args grid2 [0, 2, 3]).argInt 2 = (3 : Nat)) ∧
    (args grid2 [0, 2, 3]).NeighboursDone 0 ∧ (args (grid2.setRecord 0 coded0) [1, 0, 15]).NeighboursDone 1 ∧
    ¬ (args grid2 [1, 0, 0]).NeighboursDone 1 := by
  unfold State.OnGrid State.NeighboursDone
  refine ⟨by decide +kernel, by decide +kernel, by decide +kernel, by decide +kernel, ?_, ?_, ?_⟩
  · intro d hd n hn
    simp only [nbrOffsets, List.mem_cons, List.not_mem_nil, or_false] at hd
    rcases hd with rfl | rfl | rfl | rfl <;> exact (not_some (by decide +kernel) hn).elim
  · intro d hd n hn
    simp only [nbrOffsets, List.mem_cons, List.not_mem_nil, or_false] at hd
    rcases hd with rfl | rfl | rfl | rfl
    · have h0 : n = 0 := by
        have h1 : (args (grid2.setRecord 0 coded0) [1, 0, 15]).candidate 1 (-1) 0 = some 0 := by decide +kernel
        exact (Option.some.inj (h1.symm.trans hn)).symm
      subst h0; decide +kernel
    all_goals exact (not_some (by decide +kernel) hn).elim
  · exact fun h => absurd (h (-1, 0) (by decide) 0 (by decide +kernel)) (by decide +kernel)

/-- The macroblock of a one-macroblock grid has no neighbour. -/
theorem alone (s : State) (hw : s.gridW = 1) (hh : s.gridH = 1) : s.NeighboursDone 0 := by
  intro d hd n hn
  simp only [nbrOffsets, List.mem_cons, List.not_mem_nil, or_false] at hd
  rcases hd with rfl | rfl | rfl | rfl <;> exact absurd hn (by simp [State.candidate, hw, hh])

theorem test_hyps_MbMvpQueries : (args grid1 [0]).OnGrid ∧ (args grid1 [0]).NeighboursDone (args grid1 [0]).mArg :=
  ⟨by unfold State.OnGrid; decide +kernel, alone _ rfl rfl⟩

/-- A sound state with a grid of one macroblock, BS_LEN = 72000 and one sample at the largest magnitude. -/
def roomy : State :=
  { State.resetOf { cfg with bsBytes := 9000 } with
    bsLen := 72000
    gridW := 1
    gridH := 1
    gridValid := true
    pinY := [(0, toWord (-255))] }

theorem roomy_inv (l : List Int) : (args roomy l).Inv where
  params := by show roomy.cfg.wf = true; decide +kernel
  cursor := by show roomy.CursorOk; decide +kernel
  mem := by show roomy.MemOk; decide +kernel
  grid := by show roomy.GridOk; decide +kernel
  store := by show roomy.StoreOk; decide +kernel
  status := by show statusOk 0; decide
  errAcc := by show errAccOk 0; decide
  records := by
    intro r hr hd
    have h : r = MbRecord.fresh := (List.mem_replicate.1 hr).2
    subst h; cases hd

/-- An intra macroblock, and an inter macroblock whose motion vector difference is the largest. -/
theorem test_hyps_MbEncodeCompletes :
    ((args roomy (intraArgs 0)).Inv ∧ (args roomy (intraArgs 0)).EncodeReady ∧ (args roomy (intraArgs 0)).Room 65536 ∧
      (args roomy (intraArgs 0)).SmallSamples (args roomy (intraArgs 0)).mArg) ∧
    ((args roomy [0, 7, 0, 51, 0, 0, 0, 32767, -32767, 0]).EncodeReady ∧
      ((args roomy [0, 7, 0, 51, 0, 0, 0, 32767, -32767, 0]).argInt 7 -
        ((args roomy [0, 7, 0, 51, 0, 0, 0, 32767, -32767, 0]).mvpSpec 0 7).1).natAbs ≤ 32767 ∧
      ((args roomy [0, 7, 0, 51, 0, 0, 0, 32767, -32767, 0]).argInt 8 -
        ((args roomy [0, 7, 0, 51, 0, 0, 0, 32767, -32767, 0]).mvpSpec 0 7).2).natAbs ≤ 32767) := by
  refine ⟨⟨roomy_inv _, ?_, by unfold State.Room; decide +kernel, ?_⟩, ?_, by decide +kernel, by decide +kernel⟩
  · unfold State.EncodeReady State.OnGrid State.EncodeOperandsOk State.InOrder
    exact ⟨by decide +kernel, by decide +kernel, by decide +kernel, by decide +kernel, alone _ rfl rfl, by decide +kernel⟩
  · unfold State.SmallSamples
    intro p
    cases p <;> decide +kernel
  · unfold State.EncodeReady State.OnGrid State.EncodeOperandsOk State.InOrder
    exact ⟨by decide +kernel, by decide +kernel, by decide +kernel, by decide +kernel, alone _ rfl rfl, by decide +kernel⟩

theorem test_hyps_MbEncodeQuantises : ends .mbEncode (args roomy (intraArgs 0)) = some 0 ∧
    (args roomy (intraArgs 0)).GridOk ∧ (args roomy (intraArgs 0)).StoreOk := by decide +kernel

/-- The shortest inter macroblock, `1111`: mb_type 0, no motion vector difference, coded_block_pattern 0. -/
def shortest : State := { roomy with bsbuf := [(0, 0xF0#8)], bsLen := 4 }

/-- The operands that code it. -/
def shortestArgs : EncodeArgs :=
  { m := 0, slice := 0, st := 0, qp := 0, intra := false, pm := 0, cpm := 0, mvx := 0, mvy := 0, sliceQp := 0 }

theorem shortest_inv : (args shortest []).Inv where
  params := by show shortest.cfg.wf = true; decide +kernel
  cursor := by show shortest.CursorOk; decide +kernel
  mem := by show shortest.MemOk; decide +kernel
  grid := by show shortest.GridOk; decide +kernel
  store := by show shortest.StoreOk; decide +kernel
  status := by show statusOk 0; decide
  errAcc := by show errAccOk 0; decide
  records := (roomy_inv []).records

theorem shortest_codable : (encodeRecord shortestArgs).Codable := by
  refine ⟨fun c => by cases c <;> decide +kernel, by decide +kernel, fun c => by cases c <;> decide +kernel, ?_,
    by decide +kernel, fun _ => rfl⟩
  intro h; cases h

theorem test_hyps_MbDecodeReads :
    (args shortest []).Inv ∧ (args shortest []).DecodeReady ∧ shortestArgs.slice = (args shortest []).getArg 1 ∧
    (encodeRecord shortestArgs).Codable ∧
    (encodeRecord shortestArgs).cbp = toWord (codedBlockPattern (encodeRecord shortestArgs)) ∧
    setType 0 (boolInt false) 0 (codedBlockPattern (encodeRecord shortestArgs)) = .ok 0 ∧
    itemsBits (layerItems (args shortest []) shortestArgs (encodeRecord shortestArgs)).1 = some [true, true, true, true] ∧
    (args shortest []).Holds [true, true, true, true] := by
  refine ⟨shortest_inv, ?_, by decide +kernel, shortest_codable, by decide +kernel, by decide +kernel, by decide +kernel, ?_⟩
  · unfold State.DecodeReady State.OnGrid State.InOrder
    exact ⟨by decide +kernel, by decide +kernel, by decide +kernel, by decide +kernel, alone _ rfl rfl, by decide +kernel⟩
  · unfold State.Holds; decide +kernel

theorem test_hyps_MbDecodeReconstructs : ends .mbDecode (args shortest []) = some 0 ∧ (args shortest []).GridOk ∧
    (args shortest []).StoreOk := by decide +kernel

/-- A sample inside the view of macroblock 0, and one outside it. -/
theorem test_hyps_MacroblockCommandsKeepOthers :
    ends .mbDecode (args shortest []) = some 0 ∧ (args shortest []).GridOk ∧
    inPlane (args shortest []).cfg .y 47 47 = true ∧ ¬ (args shortest []).InView 0 .y 47 47 ∧
    (args shortest []).InView 0 .y 15 15 := by unfold State.InView; decide +kernel

theorem test_hyps_MbRoundTrip : (args roomy (intraArgs 0)).Inv ∧ ends .mbEncode (args roomy (intraArgs 0)) = some 0 ∧
    (args roomy (intraArgs 0)).SmallSamples (args roomy (intraArgs 0)).mArg := by
  refine ⟨roomy_inv _, by decide +kernel, ?_⟩
  unfold State.SmallSamples
  intro p
  cases p <;> decide +kernel

/-- MbFailure on macroblock 0, and the operands of a command on the next macroblock. -/
theorem test_hyps_MbFailureContained :
    ends .mbEncode (args { grid2 with bsLen := 3 } (intraArgs 0)) = some 0x409 ∧ statusErr 0x409#32 = 9 ∧
    (args grid2 (intraArgs 1)).argInt 0 = (args grid2 (intraArgs 0)).argInt 0 + 1 ∧ (args grid2 (intraArgs 1)).OnGrid ∧
    (args grid2 (intraArgs 1)).EncodeOperandsOk ∧ (args grid2 (intraArgs 1)).argInt 9 ≤ 51 := by
  unfold State.OnGrid State.EncodeOperandsOk; decide +kernel

/-- A stream of exactly the low `n` bits of `v` for the one macroblock of a grid (V655 to V659). -/
def mbBits (n v : Nat) : State := { onBits n v with gridW := 1, gridH := 1, gridValid := true }

/-- MB_DECODE's check phase passes on such a stream, in an I and in a P slice. -/
theorem mbBits_ready (n v : Nat) (st : Int) (h : st = 0 ∨ st = 2) :
    (args (mbBits n v) [0, 0, st, 0, 0, 0, 0, 0, 0, 26]).DecodeReady := by
  have h1 : (args grid1 [0, 0, st, 0, 0, 0, 0, 0, 0, 26]).DecodeReady := by
    unfold State.DecodeReady State.OnGrid State.InOrder
    rcases h with rfl | rfl <;>
    exact ⟨by decide +kernel, by decide +kernel, by decide +kernel, by decide +kernel, alone _ rfl rfl, by decide +kernel⟩
  exact h1

/-- A command that completes before a shorter BS_LEN ends it; then what MB_DECODE reads first: no mb_type; an unlisted
one (V655), one out of scope (V656), the first unlisted one of a P slice; an intra_chroma_pred_mode of 4 (V658); an
mb_qp_delta of 26 (V659) and of -27. -/
theorem test_hyps_MbFailureContained_causes :
    (seen 1 .mbEncode (args { grid1 with bsLen := 6 } (intraArgs 0)) = some (0, [6], 6) ∧
      seen 1 .mbDecode (args (mbBits 6 0b010111) (intraArgs 0)) = some (0, [6], 6)) ∧
    (mbBits 0 0).UeCutShort ∧ (mbBits 16 0).Holds (List.replicate 16 false) ∧
    ((24 : Int) < (27 : Nat) - 1 ∧ (mbBits 9 0b000011100).Holds (ueBits 27) ∧ (mbBits 1 1).Holds (ueBits 0) ∧
      (24 : Int) < (31 : Nat) - 6 ∧ (mbBits 11 0b00000100000).Holds (ueBits 31)) ∧
    (mbBits 8 0b01000101).Holds (ueBits 1 ++ ueBits 4) ∧
    ((mbBits 15 0b010100000110100).Holds (ueBits 1 ++ ueBits 0 ++ ueBits 51) ∧
      (mbBits 15 0b010100000110110).Holds (ueBits 1 ++ ueBits 0 ++ ueBits 53)) := by
  refine ⟨by decide +kernel, cut_short _ (by decide +kernel), ?_, ?_, ?_, ?_⟩ <;> (unfold State.Holds; decide +kernel)

theorem test_hyps_StepKeepsInv : (args roomy []).Inv ∧
    step (args roomy []) = .next (args roomy []) := ⟨roomy_inv [], rfl⟩

theorem test_hyps_ResetMeetsInv : cfg.wf = true ∧ Config.default.wf = true ∧
    (Config.wf { bsBytes := 1, maxMbw := 3, maxMbh := 3, chromaQpOffset := -12 }) = true := by decide

theorem test_hyps_ResetValues : ({ roomy with pending := [.reset] } : State).pending = .reset :: [] := rfl

/-- A location of every kind the host may write, one it may only read, and the shape of their accesses. -/
theorem test_hyps_HostAccesses :
    (fresh.hostRead (.arg 15)).isSome = true ∧ (fresh.hostRead (.bsbuf 4095)).isSome = true ∧
    (fresh.hostRead (.pin .y 47 47)).isSome = true ∧ (fresh.hostRead (.pout .cr 23 23)).isSome = true ∧
    (fresh.hostRead (.mbs 8 .done)).isSome = true ∧ (fresh.hostRead .cmd).isSome = true ∧
    (Loc.bsbuf 4095).size = .byte ∧ (Loc.arg 15).size = .word := by decide +kernel

theorem test_hyps_HostStopsAndIdle :
    fresh.pending = [] ∧ (HostAccess.read (.arg 0) .half).wellFormed = false ∧ fresh.hostRead (.arg 16) = none ∧
    fresh.hostRead (.bsbuf 4096) = none ∧ fresh.hostRead (.pin .y 48 0) = none ∧ fresh.hostRead (.mbs 9 .done) = none := by
  decide +kernel

end Sys2Proof.Tests
end

section
/-! PROOFS. The command word: the decoder and the encoder invert each other (30 R102, R106, R116). -/

namespace Sys2Proof

/-! ### The opcode map -/

/-- The per-command facts of the encoding, for every command. -/
theorem Laws.Encoding.statement (i : Instr) : Laws.Encoding.Statement i :=
  i.casesOn nop clrerr bsBind bsReset bsRead1 bsReadn bsWrite ueEnc ueDec seEnc seDec teEnc teDec
    ctEnc ctDec tz4Enc tz4Dec tzc2Enc tzc2Dec tzc4Enc tzc4Dec rbEnc rbDec pfxEnc pfxDec cbpEnc cbpDec
    cavlcEnc4 cavlcDec4 cavlcEnc2 cavlcDec2 fwd4 inv4 fwdDc4 invDc4 fwdDc2 invDc2 qpc
    mbInit mbEncode mbDecode mbSettype mbUnpacktype mbNc mbMvp

theorem decodeOp_opcode (i : Instr) : decodeOp (opcode i) = some i :=
  (Laws.Encoding.statement i).2

theorem opcode_lt (i : Instr) : opcode i < 256 := by
  cases i <;> decide

theorem opcode_of_decodeOp {n : Nat} {i : Instr} (h : decodeOp n = some i) : opcode i = n := by
  unfold decodeOp at h
  split at h <;> cases h <;> rfl

/-- The opcode map and the opcodes are inverse: no two opcodes name one command (30 R106). -/
theorem decodeOp_eq_some_iff {n : Nat} {i : Instr} : decodeOp n = some i ↔ opcode i = n :=
  ⟨opcode_of_decodeOp, fun h => h ▸ decodeOp_opcode i⟩

theorem decodeOp_isSome_of_mem_definedOpcodes : ∀ n ∈ definedOpcodes, (decodeOp n).isSome := by
  decide

/-! ### The command word -/

@[simp] theorem toNat_encode (i : Instr) : (encode i).toNat = opcode i := by
  have := opcode_lt i
  rw [encode, BitVec.toNat_ofNat, Nat.mod_eq_of_lt (by omega)]

theorem opcode_mem_definedOpcodes (i : Instr) : opcode i ∈ definedOpcodes := by
  have hwf := (Laws.Encoding.statement i).1
  simpa [wellFormedWord, opcodeListed, opField, Nat.mod_eq_of_lt (opcode_lt i)] using
    (Bool.and_eq_true_iff.mp hwf).2

/-- `definedOpcodes` lists exactly the opcodes of the commands (30 R106, R107). -/
theorem mem_definedOpcodes_iff {n : Nat} : n ∈ definedOpcodes ↔ ∃ i, opcode i = n := by
  constructor
  · intro h
    obtain ⟨i, hi⟩ := Option.isSome_iff_exists.mp (decodeOp_isSome_of_mem_definedOpcodes n h)
    exact ⟨i, opcode_of_decodeOp hi⟩
  · rintro ⟨i, rfl⟩
    exact opcode_mem_definedOpcodes i

theorem decode_of_reservedField_ne_zero {w : Word} (h : reservedField w ≠ 0) :
    decode w = .error .reservedBits :=
  if_pos h

theorem decode_of_decodeOp_eq_some {w : Word} {i : Instr} (hr : reservedField w = 0)
    (hi : decodeOp (opField w) = some i) : decode w = .ok i := by
  simp [decode, hr, hi]

theorem decode_of_decodeOp_eq_none {w : Word} (hr : reservedField w = 0)
    (hn : decodeOp (opField w) = none) : decode w = .error (.reservedOpcode (opField w)) := by
  simp [decode, hr, hn]

theorem decode_eq_ok_iff {w : Word} {i : Instr} :
    decode w = .ok i ↔ reservedField w = 0 ∧ decodeOp (opField w) = some i := by
  by_cases hr : reservedField w = 0
  · cases ho : decodeOp (opField w) with
    | none => simp [decode_of_decodeOp_eq_none hr ho]
    | some j => simp [decode_of_decodeOp_eq_some hr ho, hr]
  · simp [decode_of_reservedField_ne_zero hr, hr]

/-- Read as a number, a word decodes to `i` just when it is the opcode of `i`: the reserved bits add nothing. -/
theorem decode_eq_ok_iff_toNat {w : Word} {i : Instr} : decode w = .ok i ↔ opcode i = w.toNat := by
  have := opcode_lt i
  rw [decode_eq_ok_iff, decodeOp_eq_some_iff, reservedField, opField]
  omega

/-- Settles O4: both sides say that `w`, as a number, is the opcode of `i`. -/
theorem decodeIffEncode : Obligations.DecodeIffEncode := by
  intro w i
  calc decode w = .ok i
    _ ↔ opcode i = w.toNat := decode_eq_ok_iff_toNat
    _ ↔ w.toNat = (encode i).toNat := by rw [toNat_encode, eq_comm]
    _ ↔ w = encode i := BitVec.toNat_inj

theorem decode_eq_error_of_not_ok {w : Word} (h : ∀ i, decode w ≠ .ok i) : ∃ e, decode w = .error e := by
  cases hd : decode w with
  | error e => exact ⟨e, rfl⟩
  | ok i => exact absurd hd (h i)

/-- 30 R102, R107: a word with a reserved bit set or an unlisted OP starts no command. -/
theorem decode_eq_error_of_illegal {w : Word} (h : 256 ≤ w.toNat ∨ w.toNat % 256 ∉ definedOpcodes) :
    ∃ e, decode w = .error e := by
  apply decode_eq_error_of_not_ok
  intro i hi
  have hop : opcode i = w.toNat := decode_eq_ok_iff_toNat.mp hi
  have hlt := opcode_lt i
  rcases h with hres | hunlisted
  · omega
  · apply hunlisted
    rw [← hop, Nat.mod_eq_of_lt hlt]
    exact opcode_mem_definedOpcodes i

end Sys2Proof
end

section
/-! PROOFS. The host's write to CMD: what one step does with the command word (30 R100, R102). -/

namespace Sys2Proof.Machine

theorem issue_of_decode_ok {w : Word} {i : Instr} (h : decode w = .ok i) (s : State) :
    issue w s = exec i { s with cmd := w } := by
  rw [issue, h]

theorem issue_of_decode_error {w : Word} {e : DecodeError} (h : decode w = .error e) (s : State) :
    issue w s = .next ({ s with cmd := w }.fail .illegalCommand) := by
  rw [issue, h]

/-- A write to CMD has the shape CMD asks for and reaches a location that exists, so the step issues its word. -/
theorem step_of_cmdWrite {s : State} {w : Word} {rest : List HostAccess}
    (h : s.pending = .write .cmd .word w :: rest) : step s = issue w { s with pending := rest } := by
  rw [step, h]
  rfl

theorem State.fail_eq_endsClean (s : State) (e : Err) : s.fail e = s.endsClean e.code := s.fail_eq e

/-- Settles O5: the step issues `w`, and the decoder tells the legal words from the others. -/
theorem commandWordDecides : Obligations.CommandWordDecides := by
  intro s w rest hpending
  rw [step_of_cmdWrite hpending]
  refine ⟨fun i hi => issue_of_decode_ok hi _, fun hillegal => ?_, fun ⟨_, hlisted⟩ => ?_⟩
  · obtain ⟨e, he⟩ := decode_eq_error_of_illegal hillegal
    rw [issue_of_decode_error he, State.fail_eq_endsClean, Err.code]
  · obtain ⟨i, hi⟩ := mem_definedOpcodes_iff.mp hlisted
    exact ⟨i, decode_eq_ok_iff_toNat.mpr hi, hi⟩

end Sys2Proof.Machine
end

section
/-! PROOFS. The bit-stream commands (40_bitstream.md): BS_BIND, BS_RESET, BS_READ1, BS_READN and BS_WRITE. -/

namespace Sys2Proof.Machine

/-! ### The cursor (40 R150, R151) -/

/-- BS_BIND's operand checks, taken together: either one raises BadOperand. -/
theorem bindCheck_eq (s : State) :
    bindCheck s =
      if 0 ≤ s.argInt 0 ∧ 0 ≤ s.argInt 1 ∧ 8 * s.argInt 1 + s.argInt 0 ≤ 8 * s.cfg.bsBytes then .ok ()
      else .error .badOperand := by
  unfold bindCheck
  by_cases hsign : 0 ≤ s.argInt 0 ∧ 0 ≤ s.argInt 1
  · simp [require, hsign, bind, Except.bind]
  · rw [if_neg fun ⟨hlen, hbase, _⟩ => hsign ⟨hlen, hbase⟩]
    simp [require, hsign, bind, Except.bind]

theorem exec_bsBind (s : State) :
    exec .bsBind s = .next (s.cleanCommand ((bindCheck s).bind fun _ => .ok s.bindStream)) := rfl

/-- Settles O15, by the outcome of BS_BIND's operand checks. -/
theorem bsBindAndReset : Obligations.BsBindAndReset := by
  refine fun s => ⟨?_, rfl⟩
  rw [exec_bsBind, bindCheck_eq]
  split
  · rfl
  · exact congrArg _ (s.fail_eq_endsClean .badOperand)

/-! ### Bit strings and numbers -/

theorem bitsVal_concat (bs : List Bool) (b : Bool) : bitsVal (bs ++ [b]) = 2 * bitsVal bs + b.toNat := by
  simp [bitsVal]

theorem bitsOf_succ_eq_concat (n v : Nat) : bitsOf (n + 1) v = bitsOf n (v / 2) ++ [v.testBit 0] := by
  simp only [bitsOf, List.range_succ, List.map_append, List.map_singleton, Nat.add_sub_cancel, Nat.sub_self]
  congr 1
  apply List.map_congr_left
  intro k hk
  have hk : k < n := List.mem_range.mp hk
  rw [← Nat.testBit_succ]
  congr 1
  omega

/-- A bit string is the bits of the number it writes (00 R12). -/
theorem bitsOf_bitsVal (bs : List Bool) : bitsOf bs.length (bitsVal bs) = bs := by
  induction bs using List.reverseRecOn with
  | nil => rfl
  | append_singleton bs b ih =>
    have hdiv : bitsVal (bs ++ [b]) / 2 = bitsVal bs := by
      rw [bitsVal_concat]
      have := b.toNat_lt
      omega
    have hbit : (bitsVal (bs ++ [b])).testBit 0 = b := by
      rw [bitsVal_concat]
      cases b <;> simp
    rw [List.length_append, List.length_singleton, bitsOf_succ_eq_concat, hdiv, hbit, ih]

theorem Stream.bitsOf_bitsVal_bits (st : Stream) (p n : Nat) : bitsOf n (bitsVal (st.bits p n)) = st.bits p n := by
  simpa using bitsOf_bitsVal (st.bits p n)

theorem Stream.bitsVal_bits_lt (st : Stream) (p n : Nat) : bitsVal (st.bits p n) < 2 ^ n := by
  simpa using bitsVal_lt (st.bits p n)

theorem Stream.bitsVal_bits_one (st : Stream) (p : Nat) : bitsVal (st.bits p 1) = (st.bit p).toNat := by
  simp [bitsVal, Stream.bits]

/-! ### Reads (40 R143, R152, R153) -/

/-- A position that the bound stream has room for fits BS_POS. -/
theorem State.Room.toNat_ofNat {s : State} {n : Nat} (h : s.Room n) :
    (BitVec.ofNat 32 (s.bsPos.toNat + n)).toNat = s.bsPos.toNat + n := by
  rw [BitVec.toNat_ofNat]
  exact Nat.mod_eq_of_lt (Nat.lt_of_le_of_lt h s.bsLen.isLt)

theorem State.stream_read_of_room {s : State} {n : Nat} (hn : n ≤ 32) (h : s.Room n) :
    s.stream.read n =
      .ok (bitsVal (s.stream.bits s.bsPos.toNat n), { s.stream with pos := s.bsPos.toNat + n }) :=
  (Stream.read_eq _ hn).trans (if_pos h)

theorem State.stream_read_of_not_room {s : State} {n : Nat} (hn : n ≤ 32) (h : ¬ s.Room n) :
    s.stream.read n = .error .streamExhausted :=
  (Stream.read_eq _ hn).trans (if_neg h)

/-- A command that moves the stream's position by `n`, puts `v` in RES0 and completes. -/
theorem State.takes_of_setStream {s : State} {st : Stream} {n : Nat} (v : Int) (h : s.Room n)
    (hbuf : st.buf = s.bsbuf) (hpos : st.pos = s.bsPos.toNat + n) :
    s.Takes ((s.setStream st).setResInt 0 v).succeed n [v] := by
  refine ⟨?_, ?_, fun i _ => ?_⟩
  · simp [State.succeed_eq, State.setResInt, State.setRes, State.setStream, hbuf]
  · change (BitVec.ofNat 32 st.pos).toNat = _
    rw [hpos, h.toNat_ofNat]
  · change ((s.setStream st).setResInt 0 v).getRes i = _
    rw [State.setResInt_getRes]
    rcases Nat.eq_zero_or_pos i with rfl | hi
    · rfl
    · rw [if_neg (by omega), if_neg (by simpa using hi.ne'), State.setStream_getRes]

theorem State.readToRes_of_bad {s : State} {n : Int} (h : n < 0 ∨ 32 < n) : s.readToRes n = .error .badOperand := by
  rw [State.readToRes, Stream.read_bad _ h]
  rfl

theorem State.readToRes_of_not_room {s : State} {n : Nat} (hn : n ≤ 32) (h : ¬ s.Room n) :
    s.readToRes n = .error .streamExhausted := by
  rw [State.readToRes, State.stream_read_of_not_room hn h]
  rfl

theorem State.readToRes_of_room {s : State} {n : Nat} (hn : n ≤ 32) (h : s.Room n) :
    s.readToRes n = .ok ((s.setStream { s.stream with pos := s.bsPos.toNat + n }).setResInt 0
      (bitsVal (s.stream.bits s.bsPos.toNat n))) := by
  rw [State.readToRes, State.stream_read_of_room hn h]
  rfl

/-- A clean command that reads `n` bits into RES0, with room for them: it takes their number. -/
theorem State.cleanRead_takes {s : State} {n : Nat} (hn : n ≤ 32) (h : s.Room n) :
    s.Takes (s.cleanCommand (s.readToRes n)) n [(bitsVal (s.stream.bits s.bsPos.toNat n) : Int)] := by
  rw [State.cleanCommand_ok (State.readToRes_of_room hn h)]
  exact State.takes_of_setStream _ h rfl rfl

theorem State.cleanRead_of_not_room {s : State} {n : Nat} (hn : n ≤ 32) (h : ¬ s.Room n) :
    s.cleanCommand (s.readToRes n) = s.endsClean 3 := by
  rw [State.cleanCommand_error (State.readToRes_of_not_room hn h)]
  exact s.fail_eq_endsClean .streamExhausted

theorem exec_bsReadn (s : State) : exec .bsReadn s = .next (s.cleanCommand (s.readToRes (s.argInt 0))) := rfl

theorem exec_bsRead1 (s : State) : exec .bsRead1 s = .next (s.cleanCommand (s.readToRes (1 : Nat))) := rfl

/-- Settles O16: both commands are one clean read, of ARG0 bits or of one. -/
theorem bsReadReads : Obligations.BsReadReads := by
  refine fun s =>
    ⟨fun hbad => ?_, fun n hn harg => ⟨fun hroom => ?_, fun hroom => ?_⟩, fun hroom => ?_, fun hroom => ?_⟩
  · rw [exec_bsReadn, State.cleanCommand_error (State.readToRes_of_bad hbad), State.fail_eq_endsClean, Err.code]
  · rw [exec_bsReadn, harg, State.cleanRead_of_not_room hn hroom]
  · rw [exec_bsReadn, harg]
    exact ⟨_, _, rfl, Stream.bitsVal_bits_lt .., (Stream.bitsOf_bitsVal_bits ..).symm, State.cleanRead_takes hn hroom⟩
  · rw [exec_bsRead1, State.cleanRead_of_not_room (by decide) hroom]
  · refine ⟨_, exec_bsRead1 s, ?_⟩
    have htakes := State.cleanRead_takes (by decide) hroom
    rw [Stream.bitsVal_bits_one] at htakes
    cases hbit : s.stream.bit s.bsPos.toNat <;> simpa [hbit] using htakes

/-! ### Writes (40 R140, R144, R154) -/

/-- A state whose stream is `s`'s after a write of `bs` at BS_POS has had `bs` written, and no other bit or byte. -/
theorem State.wrote_of_stream_eq {s t : State} {bs : List Bool}
    (h : t.stream = { s.stream.putBits s.bsPos.toNat bs with pos := s.bsPos.toNat + bs.length }) : s.Wrote t bs := by
  have hbit (p : Nat) : t.stream.bit p = (s.stream.putBits s.bsPos.toNat bs).bit p := congrArg (·.bit p) h
  refine ⟨congrArg Stream.pos h, ?_, fun p hp => ?_, fun a ha => ?_⟩
  · exact (congrArg (·.bits s.bsPos.toNat bs.length) h).trans (Stream.putBits_bits ..)
  · rw [hbit, Stream.putBits_bit, if_neg (by omega)]
  · exact (congrArg (memRead ·.buf a) h).trans (Stream.putBits_memRead _ _ _ fun k hk heq => ha ⟨k, hk, heq⟩)

/-- The stream put back after a write of `bs` that the bound stream has room for. -/
theorem State.setStream_putBits_stream {s : State} {bs : List Bool} (h : s.Room bs.length) :
    (s.setStream { s.stream.putBits s.bsPos.toNat bs with pos := s.bsPos.toNat + bs.length }).stream =
      { s.stream.putBits s.bsPos.toNat bs with pos := s.bsPos.toNat + bs.length } := by
  apply State.setStream_stream
  · exact Stream.putBits_base ..
  · exact Stream.putBits_len ..
  · rw [Stream.putBits_len]
    exact h

/-- A command that writes the `n` bits `bs` at BS_POS, which it has room for, and completes. -/
theorem State.emits_of_putBits {s : State} {bs : List Bool} {n : Nat} (hlen : bs.length = n) (h : s.Room n) :
    s.Emits (s.setStream { s.stream.putBits s.bsPos.toNat bs with pos := s.bsPos.toNat + n }).succeed bs [] := by
  subst hlen
  exact ⟨rfl, State.wrote_of_stream_eq (State.setStream_putBits_stream h), fun _ _ => rfl⟩

/-- A word taken modulo 2^32 is its unsigned value, whatever its sign. -/
theorem State.argInt_emod_toNat (s : State) (i : Nat) : (s.argInt i % 4294967296).toNat = (s.getArg i).toNat := by
  have hlt := (s.getArg i).isLt
  rw [State.argInt, BitVec.toInt_eq_toNat_cond]
  omega

theorem State.stream_write_arg_of_room {s : State} {n : Nat} (i : Nat) (hn : n ≤ 32) (h : s.Room n) :
    s.stream.write n (s.argInt i) =
      .ok { s.stream.putBits s.bsPos.toNat (bitsOf n (s.getArg i).toNat) with pos := s.bsPos.toNat + n } := by
  rw [← State.argInt_emod_toNat]
  exact (Stream.write_eq _ _ hn).trans (if_pos h)

theorem State.stream_write_of_not_room {s : State} {n : Nat} (v : Int) (hn : n ≤ 32) (h : ¬ s.Room n) :
    s.stream.write n v = .error .streamOverflow :=
  (Stream.write_eq _ _ hn).trans (if_neg h)

theorem exec_bsWrite (s : State) :
    exec .bsWrite s = .next (s.cleanCommand ((s.stream.write (s.argInt 0) (s.argInt 1)).bind (.ok <| s.setStream ·))) :=
  rfl

/-- Settles O17, by BSWrite's two checks. -/
theorem bsWriteWrites : Obligations.BsWriteWrites := by
  refine fun s => ⟨fun hbad => ?_, fun n hn harg => ⟨fun hroom => ?_, fun hroom => ?_⟩⟩
  · rw [exec_bsWrite, Stream.write_bad _ _ hbad]
    exact congrArg _ (s.fail_eq_endsClean .badOperand)
  · rw [exec_bsWrite, harg, State.stream_write_of_not_room _ hn hroom]
    exact congrArg _ (s.fail_eq_endsClean .streamOverflow)
  · rw [exec_bsWrite, harg, State.stream_write_arg_of_room 1 hn hroom]
    exact ⟨_, rfl, State.emits_of_putBits (bitsOf_length ..) hroom⟩

end Sys2Proof.Machine
end

section
/-! PROOFS. The Exp-Golomb codes (41 R160, R161): the bits of a codeword, and what UeDecode answers, by the bits the
stream holds. -/

namespace Sys2Proof.Machine

/-! ### The codeword of ue(v) (41 R160) -/

/-- Every number has the parts of a codeword: its count of zero bits and the number of its last bits. -/
theorem exists_ue_parts (v : Nat) : ∃ z, ∃ x < 2 ^ z, v = 2 ^ z - 1 + x := by
  have hlow : 2 ^ Nat.log2 (v + 1) ≤ v + 1 := Nat.log2_self_le (by omega)
  have hhigh : v + 1 < 2 ^ (Nat.log2 (v + 1) + 1) := Nat.lt_log2_self
  rw [pow_succ] at hhigh
  have hpos := Nat.two_pow_pos (Nat.log2 (v + 1))
  exact ⟨Nat.log2 (v + 1), v + 1 - 2 ^ Nat.log2 (v + 1), by omega, by omega⟩

/-- The largest value of a codeword of at most fifteen zero bits is 65534. -/
theorem ue_parts_le_iff {z x : Nat} (hx : x < 2 ^ z) : 2 ^ z - 1 + x ≤ 65534 ↔ z < 16 := by
  have hpos := Nat.two_pow_pos z
  rcases Nat.lt_or_ge z 16 with hz | hz
  · have hpow : 2 ^ z ≤ 2 ^ 15 := Nat.pow_le_pow_right (by decide) (by omega)
    omega
  · have hpow : 2 ^ 16 ≤ 2 ^ z := Nat.pow_le_pow_right (by decide) hz
    omega

theorem log2_ue_parts {z x : Nat} (hx : x < 2 ^ z) : Nat.log2 (2 ^ z - 1 + x + 1) = z := by
  have hpos := Nat.two_pow_pos z
  rw [Nat.log2_eq_iff (by omega), pow_succ]
  omega

/-- The codeword from its parts: `z` zero bits, a 1 bit and the `z` bits of `x`. -/
theorem ueBits_of_parts {z x : Nat} (hx : x < 2 ^ z) :
    ueBits (2 ^ z - 1 + x) = (List.replicate z false ++ [true]) ++ bitsOf z x := by
  have hpos := Nat.two_pow_pos z
  have hsum : 2 ^ z - 1 + x + 1 - 2 ^ z = x := by omega
  rw [ueBits, log2_ue_parts hx, hsum, List.append_cons]

theorem ueBits_length (v : Nat) : (ueBits v).length = 2 * Nat.log2 (v + 1) + 1 := by
  simp only [ueBits, List.length_append, List.length_replicate, List.length_cons, bitsOf_length]
  omega

theorem bitsVal_replicate_false_append (n : Nat) (bs : List Bool) :
    bitsVal (List.replicate n false ++ bs) = bitsVal bs := by
  induction n with
  | zero => rfl
  | succ n ih => exact ih

/-- The codeword of ue(v) is the binary number v + 1 with zeros before it. -/
theorem bitsVal_ueBits (v : Nat) : bitsVal (ueBits v) = v + 1 := by
  obtain ⟨z, x, hx, rfl⟩ := exists_ue_parts v
  have hpos := Nat.two_pow_pos z
  calc bitsVal (ueBits (2 ^ z - 1 + x))
    _ = bitsVal (true :: bitsOf z x) := by
      rw [ueBits_of_parts hx, List.append_assoc, bitsVal_replicate_false_append, List.singleton_append]
    _ = 1 * 2 ^ z + x := by
      rw [bitsVal, List.foldl_cons, foldl_bitsOf, Nat.mod_eq_of_lt hx]
      rfl
    _ = 2 ^ z - 1 + x + 1 := by omega

theorem codewordBits_ueBits_length (v : Nat) : codewordBits ⟨(ueBits v).length, v + 1⟩ = ueBits v := by
  rw [codewordBits, ← bitsVal_ueBits, bitsOf_bitsVal]

theorem log2_succ_lt_sixteen_iff {v : Nat} : Nat.log2 (v + 1) < 16 ↔ v ≤ 65534 := by
  rw [Nat.log2_lt (by omega)]
  omega

theorem ueBits_length_le {v : Nat} (hv : v ≤ 65534) : (ueBits v).length ≤ 32 := by
  have hlz := log2_succ_lt_sixteen_iff.mpr hv
  rw [ueBits_length]
  omega

theorem ueCodeword_of_le {v : Nat} (hv : v ≤ 65534) : ueCodeword v = .ok ⟨(ueBits v).length, v + 1⟩ := by
  have hlz := log2_succ_lt_sixteen_iff.mpr hv
  have hcode : ueCode v = ⟨2 * Nat.log2 (v + 1) + 1, v + 1⟩ := if_neg (by rw [ueMaxBits]; omega)
  rw [ueCodeword, hcode, ueBits_length, if_neg (Nat.succ_ne_zero _)]

theorem ueCodeword_of_gt {v : Nat} (hv : 65534 < v) : ueCodeword v = .error .tableMiss := by
  have hlz := mt log2_succ_lt_sixteen_iff.mp (Nat.not_le.mpr hv)
  have hcode : ueCode v = ⟨0, 0⟩ := if_pos (by rw [ueMaxBits]; omega)
  rw [ueCodeword, hcode, if_pos rfl]

/-! ### The bits at a stream's position -/

/-- The stream with its position `n` bits further on. -/
def Stream.skip (st : Stream) (n : Nat) : Stream := { st with pos := st.pos + n }

/-- The bits from the stream's position on are `bs`, all within the stream. -/
def Stream.Holds (st : Stream) (bs : List Bool) : Prop :=
  st.pos + bs.length ≤ st.len ∧ st.bits st.pos bs.length = bs

/-- What a state's bound stream holds at BS_POS. -/
theorem State.holds_iff_stream {s : State} {bs : List Bool} : s.Holds bs ↔ s.stream.Holds bs := Iff.rfl

theorem Stream.skip_skip (st : Stream) (m n : Nat) : (st.skip m).skip n = st.skip (n + m) := by
  simp [Stream.skip, Nat.add_comm n, Nat.add_assoc]

theorem Stream.holds_append {st : Stream} {xs ys : List Bool} :
    st.Holds (xs ++ ys) ↔ st.Holds xs ∧ (st.skip xs.length).Holds ys := by
  have hbits : st.bits st.pos (xs ++ ys).length = xs ++ ys ↔
      st.bits st.pos xs.length = xs ∧ st.bits (st.pos + xs.length) ys.length = ys := by
    rw [List.length_append, Stream.bits_add]
    exact ⟨fun h => List.append_inj h (by simp), fun ⟨hxs, hys⟩ => by rw [hxs, hys]⟩
  have hlen : (xs ++ ys).length = xs.length + ys.length := List.length_append
  constructor
  · rintro ⟨hroom, h⟩
    exact ⟨⟨by omega, (hbits.mp h).1⟩, by simp only [Stream.skip]; omega, (hbits.mp h).2⟩
  · rintro ⟨⟨-, hxs⟩, hroom, hys⟩
    exact ⟨by simp only [Stream.skip] at hroom; omega, hbits.mpr ⟨hxs, hys⟩⟩

theorem Stream.holds_singleton {st : Stream} {b : Bool} :
    st.Holds [b] ↔ st.pos + 1 ≤ st.len ∧ st.bit st.pos = b := by
  simp [Stream.Holds, Stream.bits]

theorem Stream.holds_cons {st : Stream} {b : Bool} {bs : List Bool} :
    st.Holds (b :: bs) ↔ (st.pos + 1 ≤ st.len ∧ st.bit st.pos = b) ∧ (st.skip 1).Holds bs := by
  rw [← Stream.holds_singleton]
  exact Stream.holds_append (xs := [b])

theorem Stream.holds_skip_one_nil {st : Stream} (h : st.pos + 1 ≤ st.len) : (st.skip 1).Holds [] := ⟨h, rfl⟩

/-- BSRead(n) answers `v` just where the stream holds the `n` bits of `v` (40 R143). -/
theorem Stream.read_eq_ok_iff {st st' : Stream} {n v : Nat} (hn : n ≤ 32) :
    st.read n = .ok (v, st') ↔ v < 2 ^ n ∧ st.Holds (bitsOf n v) ∧ st' = st.skip n := by
  rw [Stream.read_eq _ hn]
  constructor
  · split
    · intro h
      cases h
      exact ⟨Stream.bitsVal_bits_lt .., ⟨by simpa, by rw [bitsOf_length, Stream.bitsOf_bitsVal_bits]⟩, rfl⟩
    · intro h
      cases h
  · rintro ⟨hv, ⟨hroom, hbits⟩, rfl⟩
    rw [bitsOf_length] at hroom hbits
    rw [if_pos hroom, hbits, bitsVal_bitsOf, Nat.mod_eq_of_lt hv]
    rfl

theorem Stream.read_error {st : Stream} {n : Nat} {e : Err} (hn : n ≤ 32) (h : st.read n = .error e) :
    e = .streamExhausted := by
  rw [Stream.read_eq _ hn] at h
  split at h <;> cases h
  rfl

/-! ### UeDecode (41 R161) -/

theorem except_bind_eq_ok_iff {ε α β : Type} {x : Except ε α} {f : α → Except ε β} {b : β} :
    x.bind f = .ok b ↔ ∃ a, x = .ok a ∧ f a = .ok b := by
  cases x <;> simp [Except.bind]

theorem except_bind_eq_error_iff {ε α β : Type} {x : Except ε α} {f : α → Except ε β} {e : ε} :
    x.bind f = .error e ↔ x = .error e ∨ ∃ a, x = .ok a ∧ f a = .error e := by
  cases x <;> simp [Except.bind]

theorem countZeros_succ (n : Nat) (st : Stream) :
    countZeros (n + 1) st =
      if st.pos + 1 ≤ st.len then
        if st.bit st.pos then .ok (0, st.skip 1)
        else (countZeros n (st.skip 1)).bind fun r => .ok (r.1 + 1, r.2)
      else .error .streamExhausted := by
  change st.readBit.bind _ = _
  rw [Stream.readBit_eq]
  split
  · change (if st.bit st.pos then _ else _) = _
    cases st.bit st.pos <;> rfl
  · rfl

/-- The count of zeros is `z` just where the stream holds `z` zeros and a 1 bit. -/
theorem countZeros_eq_ok_iff {n z : Nat} {st st' : Stream} :
    countZeros n st = .ok (z, st') ↔
      z < n ∧ st.Holds (List.replicate z false ++ [true]) ∧ st' = st.skip (z + 1) := by
  induction n generalizing st z with
  | zero => simp [countZeros]
  | succ n ih =>
    rw [countZeros_succ]
    split
    case isFalse hroom => cases z <;> simp [List.replicate_succ, Stream.holds_cons, hroom]
    case isTrue hroom =>
      cases hbit : st.bit st.pos with
      | true =>
        cases z with
        | zero => simp [Stream.holds_singleton, hroom, hbit, eq_comm]
        | succ z => simp [List.replicate_succ, Stream.holds_cons, hbit]
      | false =>
        cases z with
        | zero => simp [Stream.holds_singleton, hbit, except_bind_eq_ok_iff]
        | succ z =>
          simp [List.replicate_succ, Stream.holds_cons, hroom, hbit, except_bind_eq_ok_iff, ih, Stream.skip_skip]

/-- The count of zeros is over its limit just where the stream holds that many zeros. -/
theorem countZeros_eq_tableMiss_iff {n : Nat} {st : Stream} :
    countZeros n st = .error .tableMiss ↔ n = 0 ∨ st.Holds (List.replicate n false) := by
  induction n generalizing st with
  | zero => simp [countZeros]
  | succ n ih =>
    rw [countZeros_succ, List.replicate_succ, Stream.holds_cons]
    split
    case isFalse hroom => simp [hroom]
    case isTrue hroom =>
      cases hbit : st.bit st.pos with
      | true => simp
      | false =>
        have hnil : n = 0 → (st.skip 1).Holds (List.replicate n false) := by
          rintro rfl
          exact Stream.holds_skip_one_nil hroom
        simpa [hroom, except_bind_eq_error_iff, ih] using hnil

theorem countZeros_error {n : Nat} {st : Stream} {e : Err} (h : countZeros n st = .error e) :
    e = .tableMiss ∨ e = .streamExhausted := by
  induction n generalizing st with
  | zero => cases h; exact .inl rfl
  | succ n ih =>
    rw [countZeros_succ] at h
    split at h
    · split at h
      · cases h
      · rcases except_bind_eq_error_iff.mp h with hrest | ⟨_, _, hok⟩
        · exact ih hrest
        · cases hok
    · cases h; exact .inr rfl

theorem ueDecode_eq (st : Stream) :
    ueDecode st = (countZeros 16 st).bind fun p => (p.2.read p.1).bind fun q => .ok (2 ^ p.1 - 1 + q.1, q.2) := rfl

theorem ueDecode_eq_ok_iff_reads {st st' : Stream} {v : Nat} :
    ueDecode st = .ok (v, st') ↔
      ∃ z st₁ x, countZeros 16 st = .ok (z, st₁) ∧ st₁.read z = .ok (x, st') ∧ 2 ^ z - 1 + x = v := by
  simp [ueDecode_eq, except_bind_eq_ok_iff]

/-- UeDecode answers `v` just where the stream holds the codeword of `v`. -/
theorem ueDecode_eq_ok_iff {st st' : Stream} {v : Nat} :
    ueDecode st = .ok (v, st') ↔ v ≤ 65534 ∧ st.Holds (ueBits v) ∧ st' = st.skip (ueBits v).length := by
  have hlen (z x : Nat) : (List.replicate z false ++ [true] ++ bitsOf z x).length = z + (z + 1) := by simp
  rw [ueDecode_eq_ok_iff_reads]
  constructor
  · rintro ⟨z, st₁, x, hzeros, hread, rfl⟩
    obtain ⟨hz, hprefix, rfl⟩ := countZeros_eq_ok_iff.mp hzeros
    obtain ⟨hx, hsuffix, rfl⟩ := (Stream.read_eq_ok_iff (by omega)).mp hread
    rw [ueBits_of_parts hx, hlen, Stream.holds_append, Stream.skip_skip]
    exact ⟨(ue_parts_le_iff hx).mpr hz, ⟨hprefix, by simpa using hsuffix⟩, rfl⟩
  · rintro ⟨hv, hholds, rfl⟩
    obtain ⟨z, x, hx, rfl⟩ := exists_ue_parts v
    have hz := (ue_parts_le_iff hx).mp hv
    rw [ueBits_of_parts hx, Stream.holds_append] at hholds
    obtain ⟨hprefix, hsuffix⟩ := hholds
    rw [ueBits_of_parts hx, hlen, ← Stream.skip_skip]
    exact ⟨z, _, x, countZeros_eq_ok_iff.mpr ⟨hz, hprefix, rfl⟩,
      (Stream.read_eq_ok_iff (by omega)).mpr ⟨hx, by simpa using hsuffix, rfl⟩, rfl⟩

theorem ueDecode_eq_error_iff {st : Stream} {e : Err} :
    ueDecode st = .error e ↔ countZeros 16 st = .error e ∨
      ∃ z st', countZeros 16 st = .ok (z, st') ∧ st'.read z = .error e := by
  simp [ueDecode_eq, except_bind_eq_error_iff]

/-- Once the zeros have ended in a 1 bit, UeDecode raises no TableMiss: only its count of zeros does. -/
theorem ueDecode_read_error {st st' : Stream} {z : Nat} {e : Err} (hz : countZeros 16 st = .ok (z, st'))
    (h : st'.read z = .error e) : e = .streamExhausted :=
  Stream.read_error (Nat.le_of_lt (Nat.lt_trans (countZeros_eq_ok_iff.mp hz).1 (by decide))) h

/-- UeDecode raises TableMiss just at sixteen zero bits. -/
theorem ueDecode_eq_tableMiss_iff {st : Stream} :
    ueDecode st = .error .tableMiss ↔ st.Holds (List.replicate 16 false) := by
  rw [ueDecode_eq_error_iff, countZeros_eq_tableMiss_iff]
  constructor
  · rintro ((h | h) | ⟨z, st', hz, h⟩)
    · cases h
    · exact h
    · cases ueDecode_read_error hz h
  · exact fun h => .inl (.inr h)

theorem ueDecode_error {st : Stream} {e : Err} (h : ueDecode st = .error e) :
    e = .tableMiss ∨ e = .streamExhausted := by
  rcases ueDecode_eq_error_iff.mp h with hzeros | ⟨z, st', hz, hread⟩
  · exact countZeros_error hzeros
  · exact .inr (ueDecode_read_error hz hread)

end Sys2Proof.Machine
end

section
/-! PROOFS. The Exp-Golomb commands (41 R170 to R175). -/

namespace Sys2Proof.Machine

/-! ### One codeword written (40 R144; 42 R180) -/

theorem State.setResList_stream (s : State) (i : Nat) (vs : List Int) : (s.setResList i vs).stream = s.stream := by
  rw [State.setResList_eq]
  rfl

/-- A list of results written from RES0 on. -/
theorem State.results_setResList {s u : State} (rs : List Int) (hu : ∀ i, u.getRes i = s.getRes i) :
    s.Results (u.setResList 0 rs).succeed rs := by
  intro i hi
  change (u.setResList 0 rs).getRes i = _
  rw [State.setResList_getRes _ _ _ _ hi, hu]
  simp

/-- A command that writes the bits `bs` at BS_POS, which it has room for, reports `rs` and completes. -/
theorem State.emits_of_putBits_setResList {s : State} {bs : List Bool} (rs : List Int) (h : s.Room bs.length) :
    s.Emits ((s.setStream { s.stream.putBits s.bsPos.toNat bs with
      pos := s.bsPos.toNat + bs.length }).setResList 0 rs).succeed bs rs := by
  refine ⟨?_, State.wrote_of_stream_eq ?_, State.results_setResList rs fun _ => rfl⟩
  · rw [State.succeed_eq, State.setResList_eq]
    rfl
  · exact (State.setResList_stream ..).trans (State.setStream_putBits_stream h)

/-- A clean command that writes and reports one codeword of at most 32 bits. -/
theorem State.cleanEmit_codes (s : State) {c : Codeword} (hc : c.len ≤ 32) :
    s.Codes (.next (s.cleanCommand (s.emit c))) c := by
  have hlen : (codewordBits c).length = c.len := bitsOf_length ..
  have hemit := s.emit_eq c hc
  constructor
  · intro hroom
    rw [State.cleanCommand_ok (hemit.trans (if_pos hroom)), ← hlen]
    exact ⟨_, rfl, State.emits_of_putBits_setResList [_, _] (by rwa [hlen])⟩
  · intro hroom
    rw [State.cleanCommand_error (hemit.trans (if_neg hroom)), State.fail_eq_endsClean, Err.code]

/-- A command that writes and reports the codeword of ue(v), or ends with StreamOverflow where it does not fit. -/
theorem State.ueEmit_codes {s : State} {out : Host.Outcome State Fault Refusal} {v : Nat} (hv : v ≤ 65534)
    (hout : out = .next (s.cleanCommand ((ueCodeword v).bind s.emit))) :
    (¬ s.Room (ueBits v).length → out = .next (s.endsClean 4)) ∧
    (s.Room (ueBits v).length → ∃ t, out = .next t ∧
      s.Emits t (ueBits v) [((ueBits v).length : Int), (v : Int) + 1]) := by
  have hcodes := s.cleanEmit_codes (c := ⟨(ueBits v).length, v + 1⟩) (ueBits_length_le hv)
  rw [State.Codes, codewordBits_ueBits_length] at hcodes
  rw [ueCodeword_of_le hv] at hout
  subst hout
  exact hcodes.symm

/-! ### UE_ENC, SE_ENC and TE_ENC (41 R170, R172, R174) -/

theorem exec_ueEnc (s : State) :
    exec .ueEnc s = .next (s.cleanCommand ((require (decide (0 ≤ s.argInt 0)) .badOperand).bind fun _ =>
      (ueCodeword (s.argInt 0).toNat).bind s.emit)) := rfl

theorem exec_ueEnc_of_nonneg {s : State} {v : Nat} (h : s.argInt 0 = v) :
    exec .ueEnc s = .next (s.cleanCommand ((ueCodeword v).bind s.emit)) := by
  rw [exec_ueEnc, h, Int.toNat_natCast, require_eq, if_pos (by simp)]
  rfl

/-- Every encode command here whose codeword is an error ends clean. -/
theorem State.cleanEmit_error {s : State} {x : Except Err Codeword} {e : Err} (h : x = .error e) :
    s.cleanCommand (x.bind s.emit) = s.endsClean e.code := by
  rw [← State.fail_eq_endsClean, h]
  rfl

/-- Settles O19, by the range of ue(v). -/
theorem ueEncWrites : Obligations.UeEncWrites := by
  refine fun s => ⟨fun hneg => ?_, fun hbig => ?_, fun v hv harg => ?_⟩
  · rw [exec_ueEnc, require_eq, if_neg (by simpa using hneg)]
    exact congrArg _ (s.fail_eq_endsClean .badOperand)
  · obtain ⟨v, hv⟩ := Int.eq_ofNat_of_zero_le (show 0 ≤ s.argInt 0 by omega)
    rw [exec_ueEnc_of_nonneg hv, State.cleanEmit_error (ueCodeword_of_gt (by omega)), Err.code]
  · exact State.ueEmit_codes hv (exec_ueEnc_of_nonneg harg)

theorem exec_seEnc (s : State) : exec .seEnc s = .next (s.cleanCommand ((seCodeword (s.argInt 0)).bind s.emit)) := rfl

theorem exec_teEnc (s : State) :
    exec .teEnc s = .next (s.cleanCommand ((teCodeword (s.argInt 0) (s.argInt 1)).bind s.emit)) := rfl

theorem seCodeword_of_outside {v : Int} (h : v < -32767 ∨ 32767 < v) : seCodeword v = .error .tableMiss :=
  ueCodeword_of_gt (by rw [seMap]; split <;> omega)

theorem seMap_eq {v : Int} {k : Nat} (hk : (k : Int) = if 0 < v then 2 * v - 1 else -2 * v) : seMap v = k := by
  rw [seMap]
  split at hk <;> split <;> omega

theorem seUnmap_eq {v : Int} {k : Nat} (hk : (k : Int) = if 0 < v then 2 * v - 1 else -2 * v) : seUnmap k = v := by
  rw [seUnmap]
  split at hk <;> split <;> omega

theorem teCodeword_of_badRange {v cmax : Int} (h : cmax < 1) : teCodeword v cmax = .error .badOperand := by
  rw [teCodeword, require_eq, if_neg (by simpa using h)]
  rfl

theorem teCodeword_of_outside {v cmax : Int} (hc : 1 ≤ cmax) (h : v < 0 ∨ cmax < v) :
    teCodeword v cmax = .error .tableMiss := by
  have hw : within 0 cmax v = false := by simp [within]; omega
  simp [teCodeword, require_eq, hc, hw, bind, Except.bind]

theorem teCodeword_of_within {v : Nat} {cmax : Int} (hc : 1 ≤ cmax) (h : v ≤ cmax) :
    teCodeword v cmax = if cmax = 1 then .ok ⟨1, 1 - v⟩ else ueCodeword v := by
  have hw : within 0 cmax v = true := by simp [within]; omega
  simp [teCodeword, require_eq, hc, hw, bind, Except.bind, pure, Except.pure]

/-- Settles O22, by the checks of TeCode. -/
theorem teEncWrites : Obligations.TeEncWrites := by
  refine fun s => ⟨fun hbad => ?_, fun hc hmiss => ?_, fun hc v hv harg => ?_, fun hc v hv harg hle => ?_⟩
  · rw [exec_teEnc, State.cleanEmit_error (teCodeword_of_badRange hbad), Err.code]
  · suffices h : teCodeword (s.argInt 0) (s.argInt 1) = .error .tableMiss by
      rw [exec_teEnc, State.cleanEmit_error h, Err.code]
    by_cases hout : s.argInt 0 < 0 ∨ s.argInt 1 < s.argInt 0
    · exact teCodeword_of_outside hc hout
    · obtain ⟨v, hv⟩ := Int.eq_ofNat_of_zero_le (show 0 ≤ s.argInt 0 by omega)
      rw [hv, teCodeword_of_within hc (by omega), if_neg (by omega), ueCodeword_of_gt (by omega)]
  · rw [exec_teEnc, harg, teCodeword_of_within (by omega) (by omega), if_pos hc]
    exact s.cleanEmit_codes (show 1 ≤ 32 by decide)
  · apply State.ueEmit_codes hv
    rw [exec_teEnc, harg, teCodeword_of_within (by omega) hle, if_neg (by omega)]

/-! ### The shape of a decode command -/

theorem State.decodeCommand_ok {α : Type} {s t : State} {ws : WriteSet} {check : Except Err α}
    {body : α → Except Err State} {a : α} (hcheck : check = .ok a) (hroom : s.Room 1) (hbody : body a = .ok t) :
    s.decodeCommand ws check body = t.succeed := by
  subst hcheck
  have hfirst : s.firstRead = .ok () := s.firstRead_eq.trans (if_pos hroom)
  exact State.dirtyCommand_ok (by rw [hfirst]; rfl) hbody

/-- A decode command whose body ends with an error ends with it, clean or dirty: with no bit left the body's error is
that of its first read. -/
theorem State.decodeCommand_status_of_error {α : Type} {s : State} {ws : WriteSet} {check : Except Err α}
    {body : α → Except Err State} {a : α} {e : Err} (hcheck : check = .ok a) (hbody : body a = .error e)
    (hfirst : ¬ s.Room 1 → e = .streamExhausted) :
    (s.decodeCommand ws check body).status = BitVec.ofNat 32 e.code := by
  subst hcheck
  rcases s.decodeCommand_cases ws (.ok a) body with
    ⟨_, hc, _⟩ | ⟨_, _, hempty, hend⟩ | ⟨_, _, hc, _, hb, hend⟩ | ⟨_, _, hc, _, hb, _⟩
  · cases hc
  · rw [hend, State.fail_eq, hfirst (Nat.not_le.mpr (Nat.lt_succ_of_le hempty))]
  · cases hc
    cases hbody.symm.trans hb
    rw [hend, State.fail_eq]
  · cases hc
    cases hbody.symm.trans hb

/-! ### UE_DEC, SE_DEC and TE_DEC (41 R171, R173, R175) -/

/-- The decode of ue(v) that reports `f v`, or ends with the error that `f v` is. -/
def State.ueReport (s : State) (f : Nat → Except Err Int) : Except Err State :=
  (ueDecode s.stream).bind fun p => (f p.1).bind fun v => .ok ((s.setStream p.2).setResInt 0 v)

/-- The command of which UE_DEC, SE_DEC and, with cMax >= 2, TE_DEC are the cases. -/
def State.ueCommand (s : State) (f : Nat → Except Err Int) : State :=
  s.decodeCommand (decodeWrites 1) (.ok ()) fun _ => s.ueReport f

/-- TE_DEC's value with cMax >= 2: ue(v) up to cMax (41 R175). -/
def teValue (cmax : Int) (v : Nat) : Except Err Int := if (v : Int) ≤ cmax then .ok v else .error .tableMiss

theorem teValue_of_le {cmax : Int} {v : Nat} (h : v ≤ cmax) : teValue cmax v = .ok v := if_pos h

theorem teValue_of_gt {cmax : Int} {v : Nat} (h : cmax < v) : teValue cmax v = .error .tableMiss :=
  if_neg (Int.not_le.mpr h)

theorem exec_ueDec (s : State) : exec .ueDec s = .next (s.ueCommand fun v => .ok v) := rfl

theorem exec_seDec (s : State) : exec .seDec s = .next (s.ueCommand fun k => .ok (seUnmap k)) := by
  change Host.Outcome.next (s.decodeCommand _ _ fun _ => ((ueDecode s.stream).bind _).bind _) = _
  rw [State.ueCommand, State.ueReport]
  cases ueDecode s.stream <;> rfl

theorem exec_teDec (s : State) :
    exec .teDec s = .next (if s.argInt 1 = 1 then s.cleanCommand s.teDecodeBit
      else s.decodeCommand (decodeWrites 1) (require (decide (1 ≤ s.argInt 1)) .badOperand) fun _ => s.teDecodeUe) :=
  rfl

theorem exec_teDec_of_two_le {s : State} (h : 2 ≤ s.argInt 1) :
    exec .teDec s = .next (s.ueCommand (teValue (s.argInt 1))) := by
  have hbody : s.teDecodeUe = s.ueReport (teValue (s.argInt 1)) := by
    rw [State.teDecodeUe, State.ueReport]
    cases ueDecode s.stream with
    | error e => rfl
    | ok p =>
      by_cases hle : (p.1 : Int) ≤ s.argInt 1 <;>
        simp [teValue, require_eq, hle, bind, Except.bind, pure, Except.pure]
  rw [exec_teDec, if_neg (by omega), require_eq, if_pos (by simp; omega), hbody]
  rfl

theorem State.ueBits_room {s : State} {v : Nat} (h : s.Holds (ueBits v)) : s.Room 1 := by
  have := h.1
  rw [ueBits_length] at this
  rw [State.Room]
  omega

section
variable {s : State} {v : Nat} {f : Nat → Except Err Int}

theorem State.ueReport_of_holds (hv : v ≤ 65534) (h : s.Holds (ueBits v)) :
    s.ueReport f = (f v).bind fun x => .ok ((s.setStream (s.stream.skip (ueBits v).length)).setResInt 0 x) := by
  rw [State.ueReport, ueDecode_eq_ok_iff.mpr ⟨hv, State.holds_iff_stream.mp h, rfl⟩]
  rfl

theorem State.ueReport_of_error {e : Err} (h : ueDecode s.stream = .error e) : s.ueReport f = .error e := by
  rw [State.ueReport, h]
  rfl

theorem State.ueCommand_status_of_error {e : Err} (h : s.ueReport f = .error e)
    (hfirst : ¬ s.Room 1 → e = .streamExhausted) : (s.ueCommand f).status = BitVec.ofNat 32 e.code :=
  State.decodeCommand_status_of_error (body := fun _ => s.ueReport f) rfl h hfirst

/-- At a codeword whose value is reported, the command takes the codeword. -/
theorem State.ueCommand_takes {x : Int} (hv : v ≤ 65534) (h : s.Holds (ueBits v)) (hf : f v = .ok x) :
    s.Takes (s.ueCommand f) (ueBits v).length [x] := by
  rw [State.ueCommand, State.decodeCommand_ok rfl (State.ueBits_room h) (by rw [State.ueReport_of_holds hv h, hf]; rfl)]
  exact State.takes_of_setStream x h.1 rfl rfl

theorem State.ueCommand_rejects {e : Err} (hv : v ≤ 65534) (h : s.Holds (ueBits v)) (hf : f v = .error e) :
    (s.ueCommand f).status = BitVec.ofNat 32 e.code :=
  State.ueCommand_status_of_error (by rw [State.ueReport_of_holds hv h, hf]; rfl) (absurd (State.ueBits_room h))

theorem State.ueCommand_of_zeros (h : s.Holds (List.replicate 16 false)) : (s.ueCommand f).status = 1 := by
  have hroom : s.Room 1 := Nat.le_trans (Nat.add_le_add_left (by decide) _) h.1
  exact State.ueCommand_status_of_error (State.ueReport_of_error (ueDecode_eq_tableMiss_iff.mpr h)) (absurd hroom)

/-- A stream that ends before: UeDecode can answer neither a value nor TableMiss. -/
theorem ueDecode_of_cutShort (h : s.UeCutShort) : ueDecode s.stream = .error .streamExhausted := by
  obtain ⟨hcodes, hzeros⟩ := h
  cases hdec : ueDecode s.stream with
  | ok p =>
    obtain ⟨hv, hholds, -⟩ := ueDecode_eq_ok_iff.mp hdec
    exact absurd hholds (hcodes _ hv)
  | error e =>
    rcases ueDecode_error hdec with rfl | rfl
    · exact absurd (ueDecode_eq_tableMiss_iff.mp hdec) hzeros
    · rfl

theorem State.ueCommand_of_cutShort (h : s.UeCutShort) : (s.ueCommand f).status = 3 :=
  State.ueCommand_status_of_error (State.ueReport_of_error (ueDecode_of_cutShort h)) fun _ => rfl

end

/-- Settles O20: UE_DEC reports the value UeDecode answers. -/
theorem ueDecReads : Obligations.UeDecReads := fun s =>
  ⟨fun _ hv h => ⟨_, exec_ueDec s, State.ueCommand_takes hv h rfl⟩,
    fun h => ⟨_, exec_ueDec s, State.ueCommand_of_zeros h⟩,
    fun h => ⟨_, exec_ueDec s, State.ueCommand_of_cutShort h⟩⟩

/-- Settles O21: both commands go through ue(k), and k is at most 65534 just where v is in range. -/
theorem seCommands : Obligations.SeCommands := by
  refine fun s => ⟨fun hout => ?_, fun v hlow hhigh k hk => ?_,
    fun h => ⟨_, exec_seDec s, State.ueCommand_of_zeros h⟩, fun h => ⟨_, exec_seDec s, State.ueCommand_of_cutShort h⟩⟩
  · rw [exec_seEnc, State.cleanEmit_error (seCodeword_of_outside hout), Err.code]
  · have hk' : k ≤ 65534 := by split at hk <;> omega
    have henc (harg : s.argInt 0 = v) := State.ueEmit_codes (s := s) (out := exec .seEnc s) hk'
      (by rw [exec_seEnc, harg, seCodeword, seMap_eq hk])
    refine ⟨fun harg => (henc harg).1, fun harg => (henc harg).2, fun h => ⟨_, exec_seDec s, ?_⟩⟩
    exact State.ueCommand_takes hk' h (congrArg _ (seUnmap_eq hk))

theorem exec_teDec_of_one {s : State} (h : s.argInt 1 = 1) :
    exec .teDec s = .next (s.cleanCommand ((s.stream.read (1 : Nat)).bind fun p =>
      .ok ((s.setStream p.2).setResInt 0 (1 - (p.1 : Int))))) := by
  rw [exec_teDec, if_pos h]
  rfl

theorem exec_teDec_of_badRange {s : State} (h : s.argInt 1 < 1) : exec .teDec s = .next (s.endsClean 5) := by
  rw [exec_teDec, if_neg (by omega), require_eq, if_neg (by simpa using h)]
  exact congrArg _ (s.fail_eq_endsClean .badOperand)

/-- Settles O23, by cMax: one inverted bit for 1, ue(v) above. -/
theorem teDecReads : Obligations.TeDecReads := by
  refine fun s =>
    ⟨exec_teDec_of_badRange, fun hc hroom => ?_, fun hc hroom => ?_, fun hc v hv h => ?_, fun hc => ?_⟩
  · rw [exec_teDec_of_one hc, State.stream_read_of_not_room (by decide) hroom]
    exact congrArg _ (s.fail_eq_endsClean .streamExhausted)
  · rw [exec_teDec_of_one hc, State.stream_read_of_room (by decide) hroom, Stream.bitsVal_bits_one]
    refine ⟨_, rfl, ?_⟩
    have htakes (x : Int) := State.takes_of_setStream (st := s.stream.skip 1) x hroom rfl rfl
    cases hbit : s.stream.bit s.bsPos.toNat
    · exact htakes 1
    · exact htakes 0
  · refine ⟨_, exec_teDec_of_two_le hc, fun hle => ?_, fun hgt => ?_⟩
    · exact State.ueCommand_takes hv h (teValue_of_le hle)
    · exact State.ueCommand_rejects hv h (teValue_of_gt hgt)
  · exact ⟨fun h => ⟨_, exec_teDec_of_two_le hc, State.ueCommand_of_zeros h⟩,
      fun h => ⟨_, exec_teDec_of_two_le hc, State.ueCommand_of_cutShort h⟩⟩

end Sys2Proof.Machine
end

section
/-! PROOFS. The code tables (42 R180, R181): codewords as bit strings, table lookup, and what VlcWalk answers, by the
bits the stream holds. -/

namespace Sys2Proof.Machine

/-! ### Codewords and bit strings (00 R12; 42 R180) -/

/-- The codeword that a bit string spells. -/
def codewordOf (bs : List Bool) : Codeword := ⟨bs.length, bitsVal bs⟩

theorem codewordBits_codewordOf (bs : List Bool) : codewordBits (codewordOf bs) = bs := bitsOf_bitsVal bs

theorem codewordBits_length (c : Codeword) : (codewordBits c).length = c.len := bitsOf_length ..

theorem codewordOf_codewordBits {c : Codeword} (h : c.pat < 2 ^ c.len) : codewordOf (codewordBits c) = c := by
  rw [codewordOf, codewordBits_length, codewordBits, bitsVal_bitsOf, Nat.mod_eq_of_lt h]

theorem codewordOf_concat (bs : List Bool) (b : Bool) :
    codewordOf (bs ++ [b]) = ⟨(codewordOf bs).len + 1, 2 * (codewordOf bs).pat + b.toNat⟩ := by
  rw [codewordOf, List.length_append, List.length_singleton, bitsVal_concat, codewordOf]

theorem bitsVal_append_shiftRight (xs ys : List Bool) : bitsVal (xs ++ ys) >>> ys.length = bitsVal xs := by
  induction ys using List.reverseRecOn with
  | nil => simp
  | append_singleton ys b ih =>
    have hlast : bitsVal (xs ++ ys ++ [b]) >>> 1 = bitsVal (xs ++ ys) := by
      have := b.toNat_lt
      rw [bitsVal_concat, Nat.shiftRight_one]
      omega
    rw [← List.append_assoc, List.length_append, List.length_singleton, Nat.add_comm, Nat.shiftRight_add, hlast, ih]

/-! ### Codes that a bit-by-bit walk can read (42 R181) -/

/-- Two codewords differ in a bit that both have, so that neither begins with the other. -/
abbrev CodewordsDiffer (c d : Codeword) : Prop := c.pat >>> (c.len - d.len) ≠ d.pat >>> (d.len - c.len)

theorem not_codewordsDiffer_append (xs ys : List Bool) :
    ¬ CodewordsDiffer (codewordOf xs) (codewordOf (xs ++ ys)) := by
  simp [CodewordsDiffer, codewordOf, bitsVal_append_shiftRight]

/-- What the tables of 42 section 2 are: codes in which no codeword begins with another, of 1 to 32 bits. -/
abbrev IsCodebook {σ : Type} (t : VlcTable σ) : Prop :=
  t ≠ [] ∧ (∀ e ∈ t, 0 < e.2.len ∧ e.2.len ≤ 32 ∧ e.2.pat < 2 ^ e.2.len) ∧
    t.Pairwise fun e f => CodewordsDiffer e.2 f.2

section
variable {σ : Type} {t : VlcTable σ} {x : σ} {c : Codeword}

theorem IsCodebook.entry (ht : IsCodebook t) {e : σ × Codeword} (he : e ∈ t) :
    0 < e.2.len ∧ e.2.len ≤ 32 ∧ e.2.pat < 2 ^ e.2.len := by
  obtain ⟨-, hentries, -⟩ := ht
  exact hentries e he

/-- In a codebook, an entry whose codeword begins with another's, or begins another's, is that other. -/
theorem IsCodebook.eq_of_not_codewordsDiffer (ht : IsCodebook t) {e f : σ × Codeword} (he : e ∈ t) (hf : f ∈ t)
    (h : ¬ CodewordsDiffer e.2 f.2) : e = f := by
  obtain ⟨-, -, hpair⟩ := ht
  have hsymm : Std.Symm fun e f : σ × Codeword => CodewordsDiffer e.2 f.2 := ⟨fun _ _ => Ne.symm⟩
  by_contra hne
  exact h (hpair.forall he hf hne)

theorem tableSymbol_eq_none_iff : tableSymbol t c = none ↔ ∀ e ∈ t, e.2 ≠ c := by
  induction t with
  | nil => simp [tableSymbol]
  | cons e t ih =>
    by_cases h : e.2 = c <;> simp [tableSymbol, h, ih]

theorem mem_of_tableSymbol_eq_some (h : tableSymbol t c = some x) : (x, c) ∈ t := by
  induction t with
  | nil => cases h
  | cons e t ih =>
    rw [tableSymbol] at h
    split at h
    · cases h
      subst c
      exact List.mem_cons_self
    · exact List.mem_cons_of_mem _ (ih h)

theorem IsCodebook.tableSymbol_of_mem (ht : IsCodebook t) (h : (x, c) ∈ t) : tableSymbol t c = some x := by
  cases hsym : tableSymbol t c with
  | none => exact absurd rfl (tableSymbol_eq_none_iff.mp hsym _ h)
  | some y =>
    have hsame : ((y, c) : σ × Codeword) = (x, c) :=
      ht.eq_of_not_codewordsDiffer (mem_of_tableSymbol_eq_some hsym) h (by simp [CodewordsDiffer])
    rw [(Prod.mk.inj hsame).1]

theorem mem_of_tableCode_eq_some [DecidableEq σ] (h : tableCode t x = some c) : (x, c) ∈ t := by
  induction t with
  | nil => cases h
  | cons e t ih =>
    rw [tableCode] at h
    split at h
    · cases h
      subst x
      exact List.mem_cons_self
    · exact List.mem_cons_of_mem _ (ih h)

theorem lookupCode_of_isSome [DecidableEq σ] (h : (tableCode t x).isSome) :
    ∃ w, (x, w) ∈ t ∧ lookupCode t x = .ok w := by
  obtain ⟨w, hw⟩ := Option.isSome_iff_exists.mp h
  exact ⟨w, mem_of_tableCode_eq_some hw, by rw [lookupCode, hw]⟩

theorem le_foldl_max_len (n : Nat) :
    n ≤ t.foldl (fun n e => max n e.2.len) n ∧ ∀ e ∈ t, e.2.len ≤ t.foldl (fun n e => max n e.2.len) n := by
  induction t generalizing n with
  | nil => simp
  | cons e t ih =>
    obtain ⟨hstart, hrest⟩ := ih (max n e.2.len)
    exact ⟨le_of_max_le_left hstart, List.forall_mem_cons.mpr ⟨le_of_max_le_right hstart, hrest⟩⟩

theorem len_le_maxLen {e : σ × Codeword} (h : e ∈ t) : e.2.len ≤ maxLen t := (le_foldl_max_len 0).2 e h

theorem IsCodebook.maxLen_pos (ht : IsCodebook t) : 0 < maxLen t := by
  obtain ⟨e, he⟩ := List.exists_mem_of_ne_nil t ht.1
  obtain ⟨hpos, -⟩ := ht.entry he
  exact Nat.lt_of_lt_of_le hpos (len_le_maxLen he)

/-! ### VlcWalk (42 R181) -/

/-- One more bit of the walk, after the bits `bs`. -/
theorem walkFrom_succ (fuel : Nat) (bs : List Bool) (st : Stream) :
    walkFrom t (fuel + 1) (codewordOf bs) st =
      if st.pos + 1 ≤ st.len then
        match tableSymbol t (codewordOf (bs ++ [st.bit st.pos])) with
        | some x => .ok (x, st.skip 1)
        | none => walkFrom t fuel (codewordOf (bs ++ [st.bit st.pos])) (st.skip 1)
      else .error .streamExhausted := by
  rw [codewordOf_concat]
  change st.readBit.bind _ = _
  rw [Stream.readBit_eq]
  split <;> rfl

/-- After the bits `bs` of an entry's codeword, and with its other bits still to come, the walk ends at that entry: no
string on the way is a codeword. -/
theorem IsCodebook.walkFrom_of_holds (ht : IsCodebook t) (h : (x, c) ∈ t) {fuel : Nat} {bs rest : List Bool}
    {st : Stream} (hc : c = codewordOf (bs ++ rest)) (hne : rest ≠ []) (hfuel : rest.length ≤ fuel)
    (hst : st.Holds rest) : walkFrom t fuel (codewordOf bs) st = .ok (x, st.skip rest.length) := by
  induction rest generalizing fuel bs st with
  | nil => exact absurd rfl hne
  | cons b rest ih =>
    obtain ⟨⟨hroom, rfl⟩, hrest⟩ := Stream.holds_cons.mp hst
    obtain ⟨fuel, rfl⟩ := Nat.exists_eq_add_one_of_ne_zero (show fuel ≠ 0 by rintro rfl; cases hfuel)
    rw [walkFrom_succ, if_pos hroom]
    rcases eq_or_ne rest [] with rfl | hrest_ne
    · rw [← hc, ht.tableSymbol_of_mem h]
      rfl
    · rw [List.append_cons] at hc
      have hnone : tableSymbol t (codewordOf (bs ++ [st.bit st.pos])) = none := by
        refine tableSymbol_eq_none_iff.mpr fun e he heq => hrest_ne ?_
        have hsame := ht.eq_of_not_codewordsDiffer he h (by rw [heq, hc]; exact not_codewordsDiffer_append _ _)
        rw [hsame, hc] at heq
        simpa [codewordOf] using congrArg Codeword.len heq
      rw [hnone]
      simpa [Stream.skip_skip] using ih hc hrest_ne (by simpa using hfuel) hrest

/-- Where the bits to come make no codeword of the bits `bs` before them, the walk ends by its length or by the
stream's. -/
theorem walkFrom_of_no_codeword {fuel : Nat} {bs : List Bool} {st : Stream}
    (h : ∀ e ∈ t, ∀ rest ≠ [], e.2 = codewordOf (bs ++ rest) → ¬ st.Holds rest) :
    walkFrom t fuel (codewordOf bs) st =
      .error (if fuel = 0 ∨ st.pos + fuel ≤ st.len then .tableMiss else .streamExhausted) := by
  induction fuel generalizing bs st with
  | zero => rfl
  | succ fuel ih =>
    rw [walkFrom_succ]
    split
    case isFalse hroom => rw [if_neg (by omega)]
    case isTrue hroom =>
      have hbit : st.Holds [st.bit st.pos] := Stream.holds_singleton.mpr ⟨hroom, rfl⟩
      have hnone : tableSymbol t (codewordOf (bs ++ [st.bit st.pos])) = none :=
        tableSymbol_eq_none_iff.mpr fun e he heq => h e he _ (by simp) heq hbit
      have hend : (fuel = 0 ∨ (st.skip 1).pos + fuel ≤ (st.skip 1).len) ↔
          fuel + 1 = 0 ∨ st.pos + (fuel + 1) ≤ st.len := by
        simp only [Stream.skip]
        omega
      rw [hnone]
      simp only [← hend]
      refine ih fun e he rest _ heq hrest => ?_
      exact h e he (st.bit st.pos :: rest) (by simp) (by rw [heq, ← List.append_cons])
        (Stream.holds_cons.mpr ⟨⟨hroom, rfl⟩, hrest⟩)

theorem vlcWalk_eq (st : Stream) : vlcWalk t st = walkFrom t (maxLen t) (codewordOf []) st := rfl

/-- At a codeword the walk answers its symbol, with the stream after it. -/
theorem IsCodebook.vlcWalk_of_holds (ht : IsCodebook t) (h : (x, c) ∈ t) {st : Stream}
    (hst : st.Holds (codewordBits c)) : vlcWalk t st = .ok (x, st.skip c.len) := by
  obtain ⟨hpos, -, hpat⟩ := ht.entry h
  have hlen := codewordBits_length c
  have hne : codewordBits c ≠ [] := List.ne_nil_of_length_pos (by rwa [hlen])
  have hfuel : (codewordBits c).length ≤ maxLen t := by
    rw [hlen]
    exact len_le_maxLen h
  rw [vlcWalk_eq, ht.walkFrom_of_holds h (codewordOf_codewordBits hpat).symm hne hfuel hst, hlen]

/-- Where the stream starts with no codeword, the walk ends with TableMiss when a longest codeword would still fit, and
with StreamExhausted otherwise. -/
theorem IsCodebook.vlcWalk_of_no_codeword (ht : IsCodebook t) {st : Stream}
    (h : ∀ e ∈ t, ¬ st.Holds (codewordBits e.2)) :
    vlcWalk t st = .error (if st.pos + maxLen t ≤ st.len then .tableMiss else .streamExhausted) := by
  have hpos := ht.maxLen_pos
  rw [vlcWalk_eq, walkFrom_of_no_codeword fun e he rest _ heq hrest => h e he
    (by rwa [heq, List.nil_append, codewordBits_codewordOf])]
  simp [hpos.ne']

end

end Sys2Proof.Machine
end

section
/-! PROOFS. The codebook commands (42 R200 to R213). -/

namespace Sys2Proof.Machine

/-! ### The tables of 42 section 2: codebooks over their whole domains -/

theorem ctTable_isCodebook (c : CtClass) : IsCodebook (ctTable c) := by
  cases c <;> decide

theorem ctTable_covers (c : CtClass) :
    ∀ tc ≤ maxTc c, ∀ t1 ≤ min 3 tc, (tableCode (ctTable c) (tc, t1)).isSome := by
  cases c <;> decide

/-- A family of total_zeros tables: one for each TotalCoeff from 1 to `n`, over the total_zeros up to `m` less it. -/
abbrev IsTotalZeros (n m : Nat) (tbl : Nat → VlcTable Nat) : Prop :=
  ∀ tc ≤ n, 1 ≤ tc → IsCodebook (tbl tc) ∧ ∀ tz ≤ m - tc, (tableCode (tbl tc) tz).isSome

theorem tz4_isTotalZeros : IsTotalZeros 15 16 tz4 := by decide

theorem tz22_isTotalZeros : IsTotalZeros 3 4 tz22 := by decide

theorem tz24_isTotalZeros : IsTotalZeros 7 8 tz24 := by decide

theorem runBefore_isCodebook : ∀ k ≤ 7, 1 ≤ k → IsCodebook (runBefore k) := by decide

theorem runBefore_covers :
    ∀ k ≤ 7, 1 ≤ k → ∀ rb ≤ 14, (k < 7 → rb ≤ k) → (tableCode (runBefore k) rb).isSome := by decide

theorem rbTable_isCodebook {zl : Nat} (h : 1 ≤ zl) : IsCodebook (rbTable zl) :=
  runBefore_isCodebook _ (by omega) (by omega)

/-- CBPINV gives each pattern a codeNum of CBPTAB (42 R189). -/
theorem cbpTab_cbpInv : ∀ f, ∀ p ≤ 47, cbpInv f p ≤ 47 ∧ cbpTab f (cbpInv f p) = p := by decide

/-! ### The operands' checks -/

theorem require_bind {α : Type} (b : Bool) (e : Err) (f : Unit → Except Err α) :
    (require b e).bind f = if b then f () else .error e := by
  cases b <;> rfl

@[simp] theorem within_eq_true_iff {lo hi v : Int} : within lo hi v = true ↔ lo ≤ v ∧ v ≤ hi := by
  simp [within]

theorem ncClass_of_lt {nc : Int} (h : nc < -2) : ncClass nc = .error .badOperand := if_pos h

theorem ncClass_of_has {c : CtClass} {nc : Int} (h : c.Has nc) : ncClass nc = .ok c := by
  cases c <;> simp only [CtClass.Has] at h <;> simp (disch := omega) only [ncClass, if_pos, if_neg]

theorem coeffToken_of_lt {nc : Int} (h : nc < -2) (tc t1 : Int) : coeffToken tc t1 nc = .error .badOperand := by
  rw [coeffToken, ncClass_of_lt h]
  rfl

theorem coeffToken_of_has {c : CtClass} {nc : Int} (h : c.Has nc) (tc t1 : Int) :
    coeffToken tc t1 nc = if 0 ≤ tc ∧ tc ≤ maxTc c ∧ 0 ≤ t1 ∧ t1 ≤ min 3 tc then
      lookupCode (ctTable c) (tc.toNat, t1.toNat) else .error .tableMiss := by
  rw [coeffToken, ncClass_of_has h]
  change (require _ _).bind _ = _
  simp [require_bind, and_assoc]

/-- The codeword of total_zeros in a family of tables, of which TZ4_ENC, TZC2_ENC and TZC4_ENC are the cases. -/
def totalZerosCode (n m : Nat) (tbl : Nat → VlcTable Nat) (tz tc : Int) : Except Err Codeword :=
  (require (within 1 n tc && within 0 (m - tc) tz) .tableMiss).bind fun _ => lookupCode (tbl tc.toNat) tz.toNat

theorem totalZerosCode_eq (n m : Nat) (tbl : Nat → VlcTable Nat) (tz tc : Int) :
    totalZerosCode n m tbl tz tc = if 1 ≤ tc ∧ tc ≤ n ∧ 0 ≤ tz ∧ tz ≤ m - tc then
      lookupCode (tbl tc.toNat) tz.toNat else .error .tableMiss := by
  simp [totalZerosCode, require_bind, and_assoc]

theorem rbCode_eq (rb zl : Int) :
    rbCode rb zl = if 1 ≤ zl ∧ 0 ≤ rb ∧ rb ≤ min zl 14 then lookupCode (rbTable zl.toNat) rb.toNat
      else .error .tableMiss := by
  change (require _ _).bind _ = _
  simp [require_bind]

/-! ### The encode commands over a table (42 R200, R202, R204, R206, R208) -/

/-- Every symbol of a codebook has a codeword, which the command writes and reports. -/
theorem State.lookupEmit_codes {σ : Type} [DecidableEq σ] (s : State) {t : VlcTable σ} {x : σ} (ht : IsCodebook t)
    (hx : (tableCode t x).isSome) :
    ∃ w, (x, w) ∈ t ∧ s.Codes (.next (s.cleanCommand ((lookupCode t x).bind s.emit))) w := by
  obtain ⟨w, hmem, hlookup⟩ := lookupCode_of_isSome hx
  obtain ⟨-, hlen, -⟩ := ht.entry hmem
  rw [hlookup]
  exact ⟨w, hmem, s.cleanEmit_codes hlen⟩

theorem exec_ctEnc (s : State) :
    exec .ctEnc s = .next (s.cleanCommand ((coeffToken (s.argInt 0) (s.argInt 1) (s.argInt 2)).bind s.emit)) := rfl

/-- Settles O25, by the checks of nC and of the pair. -/
theorem ctEncWrites : Obligations.CtEncWrites := by
  refine fun s => ⟨fun hbad => ?_, fun c hc => ⟨fun hout => ?_, fun tc t1 htc ht1 hmax hthree hle => ?_⟩⟩
  · rw [exec_ctEnc, State.cleanEmit_error (coeffToken_of_lt hbad ..), Err.code]
  · rw [exec_ctEnc, State.cleanEmit_error ((coeffToken_of_has hc ..).trans (if_neg (by omega))), Err.code]
  · rw [exec_ctEnc, coeffToken_of_has hc, htc, ht1, if_pos (by omega)]
    exact s.lookupEmit_codes (ctTable_isCodebook c) (ctTable_covers c tc hmax t1 (by omega))

/-- The command of which TZ4_ENC, TZC2_ENC and TZC4_ENC are the cases. -/
def State.totalZerosEnc (s : State) (n m : Nat) (tbl : Nat → VlcTable Nat) : State :=
  s.cleanCommand ((totalZerosCode n m tbl (s.argInt 0) (s.argInt 1)).bind s.emit)

theorem exec_tz4Enc (s : State) : exec .tz4Enc s = .next (s.totalZerosEnc 15 16 tz4) := rfl

theorem exec_tzc2Enc (s : State) : exec .tzc2Enc s = .next (s.totalZerosEnc 3 4 tz22) := rfl

theorem exec_tzc4Enc (s : State) : exec .tzc4Enc s = .next (s.totalZerosEnc 7 8 tz24) := rfl

section
variable {s : State} {n m : Nat} {tbl : Nat → VlcTable Nat}

theorem State.totalZerosEnc_of_outside
    (h : s.argInt 1 < 1 ∨ (n : Int) < s.argInt 1 ∨ s.argInt 0 < 0 ∨ (m : Int) - s.argInt 1 < s.argInt 0) :
    s.totalZerosEnc n m tbl = s.endsClean 1 := by
  rw [State.totalZerosEnc, State.cleanEmit_error ((totalZerosCode_eq ..).trans (if_neg (by omega))), Err.code]

theorem State.totalZerosEnc_codes (htbl : IsTotalZeros n m tbl) {tz tc : Nat} (htz : s.argInt 0 = tz)
    (htc : s.argInt 1 = tc) (hlow : 1 ≤ tc) (hhigh : tc ≤ n) (hsum : tz + tc ≤ m) :
    ∃ w, (tz, w) ∈ tbl tc ∧ s.Codes (.next (s.totalZerosEnc n m tbl)) w := by
  obtain ⟨hbook, hcovers⟩ := htbl tc hhigh hlow
  rw [State.totalZerosEnc, totalZerosCode_eq, htz, htc, if_pos (by omega)]
  exact s.lookupEmit_codes hbook (hcovers tz (by omega))

end

/-- Settles O27: the three commands differ in their tables alone. -/
theorem totalZerosEncWrites : Obligations.TotalZerosEncWrites := by
  intro s e he
  simp only [List.mem_cons, List.not_mem_nil, or_false] at he
  rcases he with rfl | rfl | rfl
  · rw [exec_tz4Enc]
    exact ⟨fun h => congrArg _ (State.totalZerosEnc_of_outside h),
      fun _ _ => State.totalZerosEnc_codes tz4_isTotalZeros⟩
  · rw [exec_tzc2Enc]
    exact ⟨fun h => congrArg _ (State.totalZerosEnc_of_outside h),
      fun _ _ => State.totalZerosEnc_codes tz22_isTotalZeros⟩
  · rw [exec_tzc4Enc]
    exact ⟨fun h => congrArg _ (State.totalZerosEnc_of_outside h),
      fun _ _ => State.totalZerosEnc_codes tz24_isTotalZeros⟩

theorem exec_rbEnc (s : State) :
    exec .rbEnc s = .next (s.cleanCommand ((rbCode (s.argInt 0) (s.argInt 1)).bind s.emit)) := rfl

/-! ### A decode command that reads one element -/

theorem State.Room.mono {s : State} {m n : Nat} (h : s.Room n) (hmn : m ≤ n) : s.Room m :=
  Nat.le_trans (Nat.add_le_add_left hmn _) h

theorem State.Holds.room {s : State} {bs : List Bool} (h : s.Holds bs) : s.Room bs.length := h.1

theorem State.Holds.codeword_room {s : State} {c : Codeword} (h : s.Holds (codewordBits c)) : s.Room c.len := by
  rw [← codewordBits_length]
  exact h.room

/-- A command that moves the stream's position by `n`, puts `rs` in the registers from RES0 on and completes. -/
theorem State.takes_of_setResList {s : State} {st : Stream} {n : Nat} (rs : List Int) (h : s.Room n)
    (hbuf : st.buf = s.bsbuf) (hpos : st.pos = s.bsPos.toNat + n) :
    s.Takes ((s.setStream st).setResList 0 rs).succeed n rs := by
  refine ⟨?_, ?_, State.results_setResList rs fun _ => rfl⟩
  · rw [State.succeed_eq, State.setResList_eq, State.setStream, hbuf]
  · rw [State.succeed_eq, State.setResList_eq]
    change (BitVec.ofNat 32 st.pos).toNat = _
    rw [hpos, h.toNat_ofNat]

/-- A decode command whose operand check passes: what it does is its body's for the value of the check. -/
theorem State.decodeCommand_of_check {α : Type} (s : State) (ws : WriteSet) {check : Except Err α}
    (body : α → Except Err State) {a : α} (h : check = .ok a) :
    s.decodeCommand ws check body = s.decodeCommand ws (.ok ()) fun _ => body a := by
  subst h
  change s.dirtyCommand ws (s.firstRead.bind _) body = s.dirtyCommand ws (s.firstRead.bind _) _
  cases s.firstRead <;> rfl

theorem State.decodeCommand_of_check_error {α : Type} (s : State) (ws : WriteSet) {check : Except Err α}
    (body : α → Except Err State) {e : Err} (h : check = .error e) :
    s.decodeCommand ws check body = s.endsClean e.code := by
  subst h
  exact s.fail_eq_endsClean e

/-- The read of one element by `d`, which reports the results `f` gives for it, or ends with the error that `f`
gives. -/
def State.readReport {α : Type} (s : State) (d : Stream → Except Err (α × Stream))
    (f : α → Except Err (List Int)) : Except Err State :=
  (d s.stream).bind fun p => (f p.1).bind fun rs => .ok ((s.setStream p.2).setResList 0 rs)

/-- The command of which the decode commands of 42, CBP_DEC apart, are the cases. -/
def State.readCommand {α : Type} (s : State) (ws : WriteSet) (d : Stream → Except Err (α × Stream))
    (f : α → Except Err (List Int)) : State :=
  s.decodeCommand ws (.ok ()) fun _ => s.readReport d f

section
variable {α : Type} {s : State} {ws : WriteSet} {d : Stream → Except Err (α × Stream)}
  {f : α → Except Err (List Int)} {x : α} {n : Nat} {e : Err}

theorem State.readReport_of_ok {st : Stream} (hd : d s.stream = .ok (x, st)) :
    s.readReport d f = (f x).bind fun rs => .ok ((s.setStream st).setResList 0 rs) := by
  rw [State.readReport, hd]
  rfl

/-- An element of `n` bits whose results are reported is taken. -/
theorem State.readCommand_takes {rs : List Int} (hd : d s.stream = .ok (x, s.stream.skip n)) (hn : 0 < n)
    (hroom : s.Room n) (hf : f x = .ok rs) : s.Takes (s.readCommand ws d f) n rs := by
  rw [State.readCommand, State.decodeCommand_ok rfl (hroom.mono hn) (by rw [State.readReport_of_ok hd, hf]; rfl)]
  exact State.takes_of_setResList rs hroom rfl rfl

theorem State.readCommand_rejects {st : Stream} (hd : d s.stream = .ok (x, st)) (hfirst : s.Room 1)
    (hf : f x = .error e) : (s.readCommand ws d f).status = BitVec.ofNat 32 e.code :=
  State.decodeCommand_status_of_error (body := fun _ => s.readReport d f) rfl
    (by rw [State.readReport_of_ok hd, hf]; rfl) (absurd hfirst)

theorem State.readCommand_status_of_error (hd : d s.stream = .error e) (hfirst : ¬ s.Room 1 → e = .streamExhausted) :
    (s.readCommand ws d f).status = BitVec.ofNat 32 e.code :=
  State.decodeCommand_status_of_error (body := fun _ => s.readReport d f) rfl
    (by rw [State.readReport, hd]; rfl) hfirst

end

/-! ### The decode commands over a table (42 R181) -/

section
variable {σ : Type} {s : State} {t : VlcTable σ} {f : σ → Except Err (List Int)} {ws : WriteSet}

/-- At a codeword whose symbol is reported, the command takes the codeword. -/
theorem State.walkCommand_takes {x : σ} {c : Codeword} {rs : List Int} (ht : IsCodebook t) (hmem : (x, c) ∈ t)
    (h : s.Holds (codewordBits c)) (hf : f x = .ok rs) : s.Takes (s.readCommand ws (vlcWalk t) f) c.len rs := by
  obtain ⟨hpos, -⟩ := ht.entry hmem
  exact State.readCommand_takes (ht.vlcWalk_of_holds hmem h) hpos h.codeword_room hf

theorem State.walkCommand_rejects {x : σ} {c : Codeword} {e : Err} (ht : IsCodebook t) (hmem : (x, c) ∈ t)
    (h : s.Holds (codewordBits c)) (hf : f x = .error e) :
    (s.readCommand ws (vlcWalk t) f).status = BitVec.ofNat 32 e.code := by
  obtain ⟨hpos, -⟩ := ht.entry hmem
  exact State.readCommand_rejects (ht.vlcWalk_of_holds hmem h) (h.codeword_room.mono hpos) hf

theorem State.walkCommand_of_no_codeword (ht : IsCodebook t) (h : ∀ e ∈ t, ¬ s.Holds (codewordBits e.2)) :
    (s.Room (maxLen t) ∧ (s.readCommand ws (vlcWalk t) f).status = 1) ∨
    (¬ s.Room (maxLen t) ∧ (s.readCommand ws (vlcWalk t) f).status = 3) := by
  have hwalk := ht.vlcWalk_of_no_codeword (st := s.stream) h
  by_cases hroom : s.Room (maxLen t)
  · have hfirst : s.Room 1 := hroom.mono ht.maxLen_pos
    exact .inl ⟨hroom, State.readCommand_status_of_error (hwalk.trans (congrArg _ (if_pos hroom))) (absurd hfirst)⟩
  · exact .inr ⟨hroom, State.readCommand_status_of_error (hwalk.trans (congrArg _ (if_neg hroom))) fun _ => rfl⟩

/-- A decode command that reports every symbol of a codebook walks it. -/
theorem State.walks_of_isCodebook {out : Host.Outcome State Fault Refusal} {report : σ → List Int} (ws : WriteSet)
    (ht : IsCodebook t) (hout : out = .next (s.readCommand ws (vlcWalk t) fun x => .ok (report x))) :
    s.Walks out t report :=
  ⟨fun _ _ hmem h => ⟨_, hout, State.walkCommand_takes ht hmem h rfl⟩,
    fun h => ⟨_, hout, State.walkCommand_of_no_codeword ht h⟩⟩

end

theorem exec_ctDec (s : State) :
    exec .ctDec s = .next (s.decodeCommand (decodeWrites 2) (ncClass (s.argInt 2)) fun c =>
      s.readReport (vlcWalk (ctTable c)) fun x => .ok [(x.1 : Int), (x.2 : Int)]) := rfl

/-- Settles O26, by the class of nC. -/
theorem ctDecReads : Obligations.CtDecReads := by
  refine fun s => ⟨fun hbad => ?_, fun c hc => State.walks_of_isCodebook (decodeWrites 2) (ctTable_isCodebook c) ?_⟩
  · rw [exec_ctDec, State.decodeCommand_of_check_error _ _ _ (ncClass_of_lt hbad), Err.code]
  · rw [exec_ctDec, State.decodeCommand_of_check _ _ _ (ncClass_of_has hc)]
    rfl

/-- The command of which TZ4_DEC, TZC2_DEC and TZC4_DEC are the cases. -/
def State.totalZerosDec (s : State) (n : Nat) (tbl : Nat → VlcTable Nat) : State :=
  s.decodeCommand (decodeWrites 1) (require (within 1 n (s.argInt 1)) .tableMiss) fun _ =>
    s.readReport (vlcWalk (tbl (s.argInt 1).toNat)) fun tz => .ok [(tz : Int)]

theorem exec_tz4Dec (s : State) : exec .tz4Dec s = .next (s.totalZerosDec 15 tz4) := rfl

theorem exec_tzc2Dec (s : State) : exec .tzc2Dec s = .next (s.totalZerosDec 3 tz22) := rfl

theorem exec_tzc4Dec (s : State) : exec .tzc4Dec s = .next (s.totalZerosDec 7 tz24) := rfl

theorem State.totalZerosDec_of_outside {s : State} {n : Nat} {tbl : Nat → VlcTable Nat}
    (h : s.argInt 1 < 1 ∨ (n : Int) < s.argInt 1) : s.totalZerosDec n tbl = s.endsClean 1 := by
  have hcheck : require (within 1 n (s.argInt 1)) .tableMiss = .error .tableMiss := by
    rw [require_eq, if_neg (by rw [within_eq_true_iff]; omega)]
  rw [State.totalZerosDec, State.decodeCommand_of_check_error _ _ _ hcheck, Err.code]

theorem State.totalZerosDec_walks {s : State} {n m tc : Nat} {tbl : Nat → VlcTable Nat} (htbl : IsTotalZeros n m tbl)
    (harg : s.argInt 1 = tc) (hlow : 1 ≤ tc) (hhigh : tc ≤ n) :
    s.Walks (.next (s.totalZerosDec n tbl)) (tbl tc) fun tz => [(tz : Int)] := by
  have hcheck : require (within 1 n (s.argInt 1)) .tableMiss = .ok () := by
    rw [require_ok, within_eq_true_iff]
    omega
  refine State.walks_of_isCodebook (decodeWrites 1) (htbl tc hhigh hlow).1 ?_
  rw [State.totalZerosDec, State.decodeCommand_of_check _ _ _ hcheck, harg]
  rfl

/-- Settles O28: the three commands differ in their tables alone. -/
theorem totalZerosDecReads : Obligations.TotalZerosDecReads := by
  intro s e he
  simp only [List.mem_cons, List.not_mem_nil, or_false] at he
  rcases he with rfl | rfl | rfl
  · rw [exec_tz4Dec]
    exact ⟨fun h => congrArg _ (State.totalZerosDec_of_outside h),
      fun _ => State.totalZerosDec_walks tz4_isTotalZeros⟩
  · rw [exec_tzc2Dec]
    exact ⟨fun h => congrArg _ (State.totalZerosDec_of_outside h),
      fun _ => State.totalZerosDec_walks tz22_isTotalZeros⟩
  · rw [exec_tzc4Dec]
    exact ⟨fun h => congrArg _ (State.totalZerosDec_of_outside h),
      fun _ => State.totalZerosDec_walks tz24_isTotalZeros⟩

/-! ### run_before (42 R208, R209) -/

/-- RB_DEC's value: a run up to zerosLeft (42 R209). -/
def runValue (zl : Int) (rb : Nat) : Except Err (List Int) :=
  if (rb : Int) ≤ zl then .ok [(rb : Int)] else .error .tableMiss

theorem runValue_of_le {rb zl : Nat} (h : rb ≤ zl) : runValue zl rb = .ok [(rb : Int)] := if_pos (Int.ofNat_le.mpr h)

theorem runValue_of_gt {rb zl : Nat} (h : zl < rb) : runValue zl rb = .error .tableMiss :=
  if_neg (Int.not_le.mpr (Int.ofNat_lt.mpr h))

theorem exec_rbDec (s : State) :
    exec .rbDec s = .next (s.decodeCommand (decodeWrites 1) (require (decide (1 ≤ s.argInt 1)) .tableMiss) fun _ =>
      s.readReport (vlcWalk (rbTable (s.argInt 1).toNat)) (runValue (s.argInt 1))) := by
  change Host.Outcome.next (s.decodeCommand _ _ fun _ => (vlcWalk _ s.stream).bind _) = _
  simp only [State.readReport]
  cases vlcWalk (rbTable (s.argInt 1).toNat) s.stream with
  | error e => rfl
  | ok p =>
    by_cases hle : (p.1 : Int) ≤ s.argInt 1 <;>
      simp [runValue, require_eq, hle, bind, Except.bind, pure, Except.pure, State.setResList]

theorem exec_rbDec_of_pos {s : State} {zl : Nat} (harg : s.argInt 1 = zl) (h : 1 ≤ zl) :
    exec .rbDec s = .next (s.readCommand (decodeWrites 1) (vlcWalk (rbTable zl)) (runValue zl)) := by
  have hcheck : require (decide (1 ≤ s.argInt 1)) .tableMiss = .ok () := by
    rw [require_ok, decide_eq_true_iff]
    omega
  rw [exec_rbDec, State.decodeCommand_of_check _ _ _ hcheck, harg]
  rfl

theorem exec_rbDec_of_not_pos {s : State} (h : s.argInt 1 < 1) : exec .rbDec s = .next (s.endsClean 1) := by
  have hcheck : require (decide (1 ≤ s.argInt 1)) .tableMiss = .error .tableMiss := by
    rw [require_eq, if_neg (by rw [decide_eq_true_iff]; omega)]
  rw [exec_rbDec, State.decodeCommand_of_check_error _ _ _ hcheck, Err.code]

/-- Settles O29, by the column of zerosLeft. -/
theorem runBeforeCommands : Obligations.RunBeforeCommands := by
  refine fun s => ⟨fun hout => ?_, fun rb zl hrb hzl hpos hle hmax => ?_, exec_rbDec_of_not_pos,
    fun rb zl w harg hpos hmem h => ?_, fun zl harg hpos h => ?_⟩
  · rw [exec_rbEnc, State.cleanEmit_error ((rbCode_eq ..).trans (if_neg (by omega))), Err.code]
  · rw [exec_rbEnc, rbCode_eq, hrb, hzl, if_pos (by omega)]
    exact s.lookupEmit_codes (rbTable_isCodebook hpos)
      (runBefore_covers _ (by omega) (by omega) rb hmax (by omega))
  · refine ⟨_, exec_rbDec_of_pos harg hpos, fun hle => ?_, fun hgt => ?_⟩
    · exact State.walkCommand_takes (rbTable_isCodebook hpos) hmem h (runValue_of_le hle)
    · exact State.walkCommand_rejects (rbTable_isCodebook hpos) hmem h (runValue_of_gt hgt)
  · exact ⟨_, exec_rbDec_of_pos harg hpos, State.walkCommand_of_no_codeword (rbTable_isCodebook hpos) h⟩

/-! ### level_prefix (42 R210, R211) -/

theorem exec_pfxEnc (s : State) :
    exec .pfxEnc s = .next (s.cleanCommand (((require (within 0 31 (s.argInt 0)) .tableMiss).bind fun _ =>
      .ok (prefixCode (s.argInt 0).toNat)).bind s.emit)) := by
  change Host.Outcome.next (s.cleanCommand ((require (within 0 31 (s.argInt 0)) .tableMiss).bind _)) = _
  cases within 0 31 (s.argInt 0) <;> rfl

theorem exec_pfxDec (s : State) :
    exec .pfxDec s = .next (s.readCommand (decodeWrites 1) (countZeros 32) fun v => .ok [(v : Int)]) := rfl

/-- A count of zeros that its limit would allow, at a stream that ends after `n` zeros. -/
theorem countZeros_of_cutShort {limit n : Nat} {st : Stream} (hn : n < limit)
    (hzeros : st.Holds (List.replicate n false)) (hend : st.len < st.pos + (n + 1)) :
    countZeros limit st = .error .streamExhausted := by
  obtain ⟨limit, rfl⟩ := Nat.exists_eq_add_one_of_ne_zero (Nat.ne_zero_of_lt hn)
  induction n generalizing limit st with
  | zero => rw [countZeros_succ, if_neg (by omega)]
  | succ n ih =>
    obtain ⟨⟨hroom, hbit⟩, hrest⟩ := Stream.holds_cons.mp hzeros
    obtain ⟨limit, rfl⟩ := Nat.exists_eq_add_one_of_ne_zero (show limit ≠ 0 by omega)
    have hcount : countZeros (limit + 1) (st.skip 1) = .error .streamExhausted :=
      ih hrest (by simp only [Stream.skip]; omega) limit (by omega)
    rw [countZeros_succ, if_pos hroom, hbit, hcount]
    rfl

/-- Settles O30, by the count of zeros. -/
theorem levelPrefixCommands : Obligations.LevelPrefixCommands := by
  refine fun s => ⟨fun hout => ?_, fun v hv harg => ?_, fun v hv h => ?_, fun h => ?_, fun n hn h hend => ?_⟩
  · rw [exec_pfxEnc, require_bind, if_neg (by rw [within_eq_true_iff]; omega), State.cleanEmit_error rfl, Err.code]
  · rw [exec_pfxEnc, require_bind, if_pos (by rw [within_eq_true_iff]; omega), harg]
    exact s.cleanEmit_codes (c := prefixCode v) (Nat.succ_le_succ hv)
  · have hcount : countZeros 32 s.stream = .ok (v, s.stream.skip (v + 1)) :=
      countZeros_eq_ok_iff.mpr ⟨Nat.lt_succ_of_le hv, h, rfl⟩
    exact ⟨_, exec_pfxDec s, State.readCommand_takes hcount v.succ_pos (by simpa using h.room) rfl⟩
  · have hfirst : s.Room 1 := h.room.mono (by decide)
    exact ⟨_, exec_pfxDec s,
      State.readCommand_status_of_error (countZeros_eq_tableMiss_iff.mpr (.inr h)) (absurd hfirst)⟩
  · exact ⟨_, exec_pfxDec s,
      State.readCommand_status_of_error (countZeros_of_cutShort hn h (Nat.not_le.mp hend)) fun _ => rfl⟩

/-! ### coded_block_pattern (42 R212, R213) -/

/-- CBP_DEC's value: the pattern of a codeNum up to 47 (42 R213). -/
def cbpValue (f : Bool) (k : Nat) : Except Err Int := if k ≤ 47 then .ok (cbpTab f k) else .error .tableMiss

theorem cbpValue_of_le {f : Bool} {k : Nat} (h : k ≤ 47) : cbpValue f k = .ok (cbpTab f k) := if_pos h

theorem cbpValue_of_gt {f : Bool} {k : Nat} (h : 47 < k) : cbpValue f k = .error .tableMiss := if_neg (Nat.not_le.mpr h)

theorem exec_cbpEnc (s : State) :
    exec .cbpEnc s = .next (s.cleanCommand
      ((require (decide (s.argInt 1 = 0 ∨ s.argInt 1 = 1)) .badOperand).bind fun _ =>
        (cbpCodeword (decide (s.argInt 1 = 1)) (s.argInt 0)).bind fun c =>
          (s.emit c).bind fun t => .ok (t.setResInt 2 (cbpInv (decide (s.argInt 1 = 1)) (s.argInt 0).toNat)))) := rfl

theorem exec_cbpDec (s : State) :
    exec .cbpDec s = .next (s.decodeCommand (decodeWrites 1)
      (require (decide (s.argInt 1 = 0 ∨ s.argInt 1 = 1)) .badOperand) fun _ =>
        s.ueReport (cbpValue (decide (s.argInt 1 = 1)))) := by
  have hbody (f : Bool) : s.decodeToRes (cbpDecode f) = s.ueReport (cbpValue f) := by
    rw [State.decodeToRes, cbpDecode, State.ueReport]
    cases ueDecode s.stream with
    | error e => rfl
    | ok p =>
      by_cases hle : p.1 ≤ 47 <;> simp [cbpValue, require_eq, hle, bind, Except.bind, pure, Except.pure]
  simp only [← hbody]
  rfl

theorem State.cbpFlag_check {s : State} {f : Bool} (h : s.argInt 1 = if f then 1 else 0) :
    decide (s.argInt 1 = 1) = f ∧ require (decide (s.argInt 1 = 0 ∨ s.argInt 1 = 1)) .badOperand = .ok () := by
  cases f <;> simp [h]

theorem State.cbpFlag_check_error {s : State} (h : s.argInt 1 ≠ 0 ∧ s.argInt 1 ≠ 1) :
    require (decide (s.argInt 1 = 0 ∨ s.argInt 1 = 1)) .badOperand = .error .badOperand := by
  simp [require_eq, h]

theorem exec_cbpDec_of_flag {s : State} {f : Bool} (h : s.argInt 1 = if f then 1 else 0) :
    exec .cbpDec s = .next (s.ueCommand (cbpValue f)) := by
  obtain ⟨hflag, hcheck⟩ := State.cbpFlag_check h
  rw [exec_cbpDec, State.decodeCommand_of_check _ _ _ hcheck, hflag]
  rfl

theorem exec_cbpEnc_of_flag {s : State} {f : Bool} (h : s.argInt 1 = if f then 1 else 0) :
    exec .cbpEnc s = .next (s.cleanCommand ((cbpCodeword f (s.argInt 0)).bind fun c =>
      (s.emit c).bind fun t => .ok (t.setResInt 2 (cbpInv f (s.argInt 0).toNat)))) := by
  obtain ⟨hflag, hcheck⟩ := State.cbpFlag_check h
  rw [exec_cbpEnc, hcheck, hflag]
  rfl

theorem cbpCodeword_of_outside {f : Bool} {p : Int} (h : p < 0 ∨ 47 < p) : cbpCodeword f p = .error .tableMiss := by
  change (require _ _).bind _ = _
  rw [require_bind, if_neg (by rw [within_eq_true_iff]; omega)]

theorem cbpCodeword_of_within {f : Bool} {p : Nat} (h : p ≤ 47) : cbpCodeword f p = ueCodeword (cbpInv f p) := by
  change (require _ _).bind _ = _
  rw [require_bind, if_pos (by rw [within_eq_true_iff]; omega), Int.toNat_natCast]

/-- A clean command that writes the codeword of ue(k), reports it and then `k` in RES2, or ends with StreamOverflow
where it does not fit. -/
theorem State.ueEmit_reports {s : State} {out : Host.Outcome State Fault Refusal} {k : Nat} (hk : k ≤ 65534)
    (hout : out = .next (s.cleanCommand ((ueCodeword k).bind fun c =>
      (s.emit c).bind fun t => .ok (t.setResInt 2 k)))) :
    (¬ s.Room (ueBits k).length → out = .next (s.endsClean 4)) ∧
    (s.Room (ueBits k).length → ∃ t, out = .next t ∧
      s.Emits t (ueBits k) [((ueBits k).length : Int), (k : Int) + 1, (k : Int)]) := by
  have hemit := s.emit_eq ⟨(ueBits k).length, k + 1⟩ (ueBits_length_le hk)
  rw [codewordBits_ueBits_length] at hemit
  rw [ueCodeword_of_le hk] at hout
  change out = .next (s.cleanCommand ((s.emit _).bind _)) at hout
  refine ⟨fun hroom => ?_, fun hroom => ⟨_, ?_, State.emits_of_putBits_setResList _ hroom⟩⟩
  · rw [hout, hemit.trans (if_neg hroom)]
    exact congrArg _ (s.fail_eq_endsClean .streamOverflow)
  · rw [hout, hemit.trans (if_pos hroom)]
    rfl

/-- Settles O31: CBP_ENC goes through CBPINV and ue(k), CBP_DEC through ue(k) and CBPTAB. -/
theorem cbpCommands : Obligations.CbpCommands := by
  refine fun s => ⟨fun hbad => ⟨?_, ?_⟩, fun f hf => ⟨fun hout => ?_, fun p hp harg => ?_, fun k hk h => ?_, ?_, ?_⟩⟩
  · rw [exec_cbpEnc, State.cbpFlag_check_error hbad]
    exact congrArg _ (s.fail_eq_endsClean .badOperand)
  · rw [exec_cbpDec, State.decodeCommand_of_check_error _ _ _ (State.cbpFlag_check_error hbad), Err.code]
  · rw [exec_cbpEnc_of_flag hf, cbpCodeword_of_outside hout]
    exact congrArg _ (s.fail_eq_endsClean .tableMiss)
  · obtain ⟨hk, htab⟩ := cbpTab_cbpInv f p hp
    refine ⟨cbpInv f p, hk, htab, State.ueEmit_reports (by omega) ?_⟩
    rw [exec_cbpEnc_of_flag hf, harg, cbpCodeword_of_within hp, Int.toNat_natCast]
  · refine ⟨_, exec_cbpDec_of_flag hf, fun hle => ?_, fun hgt => ?_⟩
    · exact State.ueCommand_takes hk h (cbpValue_of_le hle)
    · exact State.ueCommand_rejects hk h (cbpValue_of_gt hgt)
  · exact fun h => ⟨_, exec_cbpDec_of_flag hf, State.ueCommand_of_zeros h⟩
  · exact fun h => ⟨_, exec_cbpDec_of_flag hf, State.ueCommand_of_cutShort h⟩

end Sys2Proof.Machine
end

section
/-! PROOFS. The chroma QP (44 R281, R296). -/

namespace Sys2Proof.Machine

theorem State.reports_setResList (s : State) (rs : List Int) : s.Reports (s.setResList 0 rs).succeed rs := by
  refine ⟨?_, State.results_setResList rs fun _ => rfl⟩
  rw [State.succeed_eq, State.setResList_eq]

/-! ### The table (44 R281) -/

@[simp] theorem isQp_eq_true_iff {v : Int} : isQp v = true ↔ 0 ≤ v ∧ v ≤ 51 := within_eq_true_iff

theorem qpcTable_eq_qpcList : ∀ q < 52, qpcTable q = qpcList.getD q 0 := by decide

/-- The clip keeps the sum within the table, whatever the offset. -/
theorem qpChroma_eq_qpcSpec (c : Config) (qp : Int) : qpChroma c qp = qpcSpec c qp :=
  qpcTable_eq_qpcList (clip3 0 51 (qp + c.chromaQpOffset)).toNat (by rw [clip3]; omega)

/-! ### The command (44 R296) -/

theorem exec_qpc (s : State) :
    exec .qpc s = .next (s.cleanCommand ((require (isQp (s.argInt 0)) .badOperand).bind fun _ =>
      .ok (s.setResList 0 [(qpChroma s.cfg (s.argInt 0) : Int)]))) := rfl

/-- Settles O41, by the operand check; the looked-up value is the table's at every offset. -/
theorem qpcLooksUp : Obligations.QpcLooksUp := by
  refine fun s => ⟨fun hout => ?_, fun hlow hhigh => ?_⟩
  · rw [exec_qpc, require_bind, if_neg (by rw [isQp_eq_true_iff]; omega)]
    exact congrArg _ (s.fail_eq_endsClean .badOperand)
  · rw [exec_qpc, require_bind, if_pos (isQp_eq_true_iff.mpr ⟨hlow, hhigh⟩), qpChroma_eq_qpcSpec]
    exact ⟨_, rfl, s.reports_setResList _⟩

end Sys2Proof.Machine
end

section
/-! PROOFS. The grid and the macroblock type: MB_INIT, MB_SETTYPE and MB_UNPACKTYPE (45 R330, R371, R372). -/

namespace Sys2Proof.Machine

/-! ### The shape of a clean command that reports -/

theorem State.cleanBind_error {α : Type} (s : State) {x : Except Err α} {f : α → Except Err State} {e : Err}
    (h : x = .error e) : s.cleanCommand (x.bind f) = s.endsClean e.code := by
  rw [State.cleanCommand_error (e := e) (by rw [h]; rfl), State.fail_eq_endsClean]

theorem State.cleanReport_of_ok {α : Type} (s : State) {x : Except Err α} {f : α → Except Err State} {a : α}
    {rs : List Int} (h : x = .ok a) (hf : f a = .ok (s.setResList 0 rs)) :
    ∃ t, Host.Outcome.next (φ := Fault) (ρ := Refusal) (s.cleanCommand (x.bind f)) = .next t ∧ s.Reports t rs := by
  subst h
  exact ⟨_, congrArg _ (State.cleanCommand_ok hf), s.reports_setResList rs⟩

/-! ### MB_INIT (45 R330) -/

theorem exec_mbInit (s : State) :
    exec .mbInit s = .next (s.cleanCommand ((require (within 1 s.cfg.maxMbw (s.argInt 0) &&
      within 1 s.cfg.maxMbh (s.argInt 1)) .badOperand).bind fun _ => .ok s.initGrid)) := rfl

/-- The number of macroblocks of the grid that ARG0 and ARG1 describe. -/
def State.initCount (s : State) : Nat := (s.getArg 0).toNat * (s.getArg 1).toNat

theorem State.initGrid_mbs (s : State) :
    s.initGrid.mbs = List.replicate (min s.initCount s.mbs.length) MbRecord.fresh ++ s.mbs.drop s.initCount := rfl

theorem State.initGrid_mbs_length (s : State) : s.initGrid.mbs.length = s.mbs.length := by
  rw [State.initGrid_mbs, List.length_append, List.length_replicate, List.length_drop]
  omega

/-- 45 R330: the records of the grid are fresh, the others are kept; an index past the store reads as fresh. -/
theorem State.initGrid_record (s : State) (m : Nat) :
    s.initGrid.record m = if m < s.initCount then MbRecord.fresh else s.record m := by
  simp only [State.record, State.initGrid_mbs, List.getD_eq_getElem?_getD, List.getElem?_append,
    List.getElem?_replicate, List.getElem?_drop, List.length_replicate]
  by_cases hm : m < s.initCount
  · rw [if_pos hm]
    by_cases hlen : m < s.mbs.length
    · simp [hm, hlen]
    · rw [if_neg (by omega), List.getElem?_eq_none (by omega)]
      rfl
  · rw [if_neg hm, if_neg (by omega)]
    by_cases hlen : s.initCount ≤ s.mbs.length
    · rw [show s.initCount + (m - min s.initCount s.mbs.length) = m by omega]
    · rw [List.getElem?_eq_none (by omega), List.getElem?_eq_none (by omega)]

theorem State.getArg_toNat_of_nonneg {s : State} {i : Nat} (h : 0 ≤ s.argInt i) :
    ((s.getArg i).toNat : Int) = s.argInt i := by
  rw [State.argInt, BitVec.toInt_eq_toNat_of_msb]
  rwa [BitVec.msb_eq_toInt, decide_eq_false_iff_not, not_lt]

theorem State.initCount_of_nonneg {s : State} (hw : 0 ≤ s.argInt 0) (hh : 0 ≤ s.argInt 1) :
    (s.initCount : Int) = s.argInt 0 * s.argInt 1 := by
  rw [State.initCount, Nat.cast_mul, State.getArg_toNat_of_nonneg hw, State.getArg_toNat_of_nonneg hh]

/-- Settles O42, by the operand check and by what the record store then holds. -/
theorem mbInitSetsGrid : Obligations.MbInitSetsGrid := by
  refine fun s => ⟨fun hout => ?_, fun hw hwmax hh hhmax => ?_⟩
  · rw [exec_mbInit, s.cleanBind_error (e := .badOperand), Err.code]
    exact if_neg (by simpa [and_assoc] using hout)
  · have hcount := State.initCount_of_nonneg (s := s) (by omega) (by omega)
    refine ⟨s.initGrid.succeed, ?_, rfl, s.initGrid_mbs_length, fun m hm => ?_, fun m hm => ?_⟩
    · rw [exec_mbInit, require_bind, if_pos (by simp [*])]
      rfl
    · exact (s.initGrid_record m).trans (if_pos (by omega))
    · exact (s.initGrid_record m).trans (if_neg (by omega))

/-! ### MB_SETTYPE (45 R335, R371) -/

theorem exec_mbSettype (s : State) :
    exec .mbSettype s = .next (s.cleanCommand
      ((setType (s.argInt 0) (s.argInt 1) (s.argInt 2) (s.argInt 3)).bind fun t => .ok (s.setResList 0 [t]))) := rfl

theorem sliceTypeOk_eq_true_iff {st : Int} : sliceTypeOk st = true ↔ st = 0 ∨ st = 2 := decide_eq_true_iff

/-- SetType with its checks read as conditions, in their order. -/
theorem setType_eq (st intra pm cbp : Int) : setType st intra pm cbp =
    if ¬ (st = 0 ∨ st = 2) then .error .unsupported
    else if ¬ (intra = 0 ∨ intra = 1) then .error .badOperand
    else if intra = 0 then if st = 0 then .ok 0 else .error .badOperand
    else if ¬ (0 ≤ pm ∧ pm ≤ 3 ∧ 0 ≤ cbp ∧ cbp ≤ 47) then .error .tableMiss
    else if ¬ (cbp % 16 = 0 ∨ cbp % 16 = 15) then .error .tableMiss
    else .ok (1 + pm + 4 * (cbp / 16) + (if cbp % 16 = 15 then 12 else 0) + (if st = 0 then 5 else 0)) := by
  have hfive (t : Int) : (if st = 0 then t + 5 else t) = t + (if st = 0 then 5 else 0) := by split <;> simp
  unfold setType
  simp only [bind, pure, Except.pure, require_bind, hfive, sliceTypeOk_eq_true_iff, Bool.and_eq_true, within_eq_true_iff,
    decide_eq_true_eq, ite_not, and_assoc]

/-- Settles O43: the clauses are SetType's branches. -/
theorem mbSettypePacks : Obligations.MbSettypePacks := by
  intro s
  rw [exec_mbSettype]
  refine ⟨fun hst => ?_, fun hst hbad => ?_, fun hst hintra => ?_, fun hst hintra hout => ?_,
    fun hst hintra hpm0 hpm3 hcbp0 hcbp47 hluma => ?_⟩
  · rw [s.cleanBind_error (e := .unsupported), Err.code]
    simp (disch := omega) only [setType_eq, if_pos]
  · rw [s.cleanBind_error (e := .badOperand), Err.code]
    rcases hbad with hintra | ⟨hintra, hslice⟩
    all_goals simp (disch := omega) only [setType_eq, if_pos, if_neg]
  · exact s.cleanReport_of_ok (by rw [hst, hintra]; rfl) rfl
  · rw [s.cleanBind_error (e := .tableMiss), Err.code]
    by_cases hrange : 0 ≤ s.argInt 2 ∧ s.argInt 2 ≤ 3 ∧ 0 ≤ s.argInt 3 ∧ s.argInt 3 ≤ 47
    all_goals simp (disch := omega) only [setType_eq, if_pos, if_neg]
  · exact s.cleanReport_of_ok (by simp (disch := omega) only [setType_eq, if_pos, if_neg]) rfl

/-! ### MB_UNPACKTYPE (45 R336, R372) -/

theorem exec_mbUnpacktype (s : State) :
    exec .mbUnpacktype s = .next (s.cleanCommand ((unpackMbType (s.argInt 0) (s.argInt 1)).bind fun r =>
      .ok (s.setResList 0 [r.1, r.2.1, r.2.2]))) := rfl

/-- UnpackMbType with its checks read as conditions, in their order. -/
theorem unpackMbType_eq (st t : Int) : unpackMbType st t =
    if ¬ (st = 0 ∨ st = 2) then .error .unsupported
    else if t < 0 then .error .tableMiss
    else if st = 0 then
      if t = 0 then .ok (0, 0, -1)
      else if 1 ≤ t ∧ t ≤ 4 then .error .unsupported
      else if 30 < t then .error .tableMiss
      else unpackIntra (t - 5)
    else unpackIntra t := by
  have hneg : 0 ≤ t ↔ ¬ t < 0 := by omega
  have hrange : t ≤ 30 ↔ ¬ 30 < t := by omega
  simp only [unpackMbType, bind, pure, Except.pure, require_bind, sliceTypeOk_eq_true_iff, Bool.not_eq_true',
    ← Bool.not_eq_true, within_eq_true_iff, decide_eq_true_eq, hneg, hrange, ite_not]

/-- What an mb_type other than the inter one says, by its place `u` among the Intra_16x16 types (45 R336): below them
stand I_NxN and the multi-partition types, and I_PCM right after them. -/
def unpackPlace (u : Int) : Except Err (Int × Int × Int) :=
  if u < 0 ∨ u = 24 then .error .unsupported
  else if 24 < u then .error .tableMiss
  else .ok (1, u % 4, (if 12 ≤ u then 15 else 0) + 16 * (u / 4 % 3))

/-- The I-slice values start at place -1. -/
theorem unpackIntra_eq_unpackPlace {t : Int} (h : 0 ≤ t) : unpackIntra t = unpackPlace (t - 1) := by
  have hscope : (t ≠ 0 ∧ t ≠ 25) ↔ ¬ (t - 1 < 0 ∨ t - 1 = 24) := by omega
  have hrange : t ≤ 25 ↔ ¬ 24 < t - 1 := by omega
  simp only [unpackIntra, unpackPlace, bind, pure, Except.pure, require_bind, decide_eq_true_eq, hscope, hrange,
    ite_not]

/-- The place of an mb_type among the Intra_16x16 types of its slice type. -/
theorem unpackMbType_eq_unpackPlace {st t : Int} (hst : st = 0 ∨ st = 2) (ht : 0 ≤ t) (hinter : st = 0 → t ≠ 0) :
    unpackMbType st t = unpackPlace (if st = 0 then t - 6 else t - 1) := by
  by_cases hslice : st = 0
  · have hpos : t ≠ 0 := hinter hslice
    by_cases hlow : t ≤ 4
    · simp (disch := omega) only [unpackMbType_eq, unpackPlace, if_pos, if_neg]
    by_cases hhigh : 30 < t
    · simp (disch := omega) only [unpackMbType_eq, unpackPlace, if_pos, if_neg]
    · have hplace : t - 5 - 1 = t - 6 := by omega
      simp (disch := omega) only [unpackMbType_eq, unpackIntra_eq_unpackPlace, hplace, if_pos, if_neg]
  · simp (disch := omega) only [unpackMbType_eq, unpackIntra_eq_unpackPlace, if_neg]

section
variable {s : State}

theorem exec_mbUnpacktype_of_error {e : Err} (h : unpackMbType (s.argInt 0) (s.argInt 1) = .error e) :
    exec .mbUnpacktype s = .next (s.endsClean e.code) := by
  rw [exec_mbUnpacktype, s.cleanBind_error h]

theorem exec_mbUnpacktype_of_ok {i p c : Int} (h : unpackMbType (s.argInt 0) (s.argInt 1) = .ok (i, p, c)) :
    ∃ t, exec .mbUnpacktype s = .next t ∧ s.Reports t [i, p, c] := by
  rw [exec_mbUnpacktype]
  exact s.cleanReport_of_ok h rfl

end

/-- Settles O44, by the place of the mb_type among the Intra_16x16 types. -/
theorem mbUnpacktypeUnpacks : Obligations.MbUnpacktypeUnpacks := by
  refine fun s => ⟨fun hst => ?_, fun hst hout => ?_, fun hst ht => ?_, fun hscope => ?_, fun hst hu0 hu23 => ?_⟩
  · apply exec_mbUnpacktype_of_error (e := .unsupported)
    rw [unpackMbType_eq, if_pos (by omega)]
  · apply exec_mbUnpacktype_of_error (e := .tableMiss)
    by_cases hneg : s.argInt 1 < 0
    · rw [unpackMbType_eq, if_neg (by omega), if_pos hneg]
    · rw [unpackMbType_eq_unpackPlace hst (by omega) (by omega), unpackPlace, if_neg (by omega), if_pos (by omega)]
  · exact exec_mbUnpacktype_of_ok (by rw [hst, ht]; rfl)
  · apply exec_mbUnpacktype_of_error (e := .unsupported)
    rw [unpackMbType_eq_unpackPlace (by omega) (by omega) (by omega), unpackPlace, if_pos (by omega)]
  · apply exec_mbUnpacktype_of_ok
    rw [unpackMbType_eq_unpackPlace hst (by omega) (by omega), unpackPlace, if_neg (by omega), if_neg (by omega)]

end Sys2Proof.Machine
end

section
/-! PROOFS. The grid's neighbours and the motion vector predictor (45 R323, R325, R340, R374). -/

namespace Sys2Proof.Machine

/-! ### The macroblock operand (45 R373 to R376) -/

theorem gridIndex_eq_ok_iff {s : State} {m : Nat} : gridIndex s = .ok m ↔ s.OnGrid ∧ m = s.mArg := by
  change (require _ _).bind (fun _ => (require _ _).bind fun _ => .ok s.mArg) = _ ↔ _
  rw [require_bind, require_bind]
  by_cases hgrid : s.OnGrid
  · obtain ⟨hvalid, hrange⟩ := hgrid
    rw [if_pos hvalid, if_pos (decide_eq_true hrange), Except.ok.injEq, eq_comm]
    exact (and_iff_right ⟨hvalid, hrange⟩).symm
  · simp only [hgrid, false_and, iff_false]
    split_ifs with hvalid hrange
    · exact absurd ⟨hvalid, of_decide_eq_true hrange⟩ hgrid
    · nofun
    · nofun

theorem State.OnGrid.mArg_lt {s : State} (h : s.OnGrid) : s.mArg < s.gridW.toNat * s.gridH.toNat := by
  obtain ⟨-, hlow, hhigh⟩ := h
  rw [← Nat.cast_mul] at hhigh
  rw [State.mArg]
  omega

/-! ### Neighbours (45 R323) -/

/-- The offset of a candidate neighbour. -/
def Nbr.offset : Nbr → Int × Int
  | .a => (-1, 0)
  | .b => (0, -1)
  | .c => (1, -1)
  | .d => (-1, -1)

section
variable {s : State} {m : Nat}

/-- A position of the grid is `dx` columns and `dy` rows of `GRID_W` away from `m`. -/
theorem State.candidate_eq (s : State) (m : Nat) (dx dy : Int) : s.candidate m dx dy =
    if 0 ≤ (s.mbx m : Int) + dx ∧ s.mbx m + dx < s.gridW.toNat ∧ 0 ≤ s.mby m + dy ∧ s.mby m + dy < s.gridH.toNat then
      some (m + dy * s.gridW.toNat + dx).toNat else none := by
  have hpos : ((m / s.gridW.toNat : Nat) + dy) * s.gridW.toNat + ((m % s.gridW.toNat : Nat) + dx) =
      m + dy * s.gridW.toNat + dx := by
    have hm : ((s.gridW.toNat * (m / s.gridW.toNat) + m % s.gridW.toNat : Nat) : Int) = m := by rw [Nat.div_add_mod]
    push_cast at hm ⊢
    linear_combination hm
  rw [State.candidate, hpos]
  rfl

theorem ite_some_congr {α : Type} {p q : Prop} [Decidable p] [Decidable q] {x y : α} (hpq : p ↔ q)
    (hxy : p → x = y) : (if p then some x else none) = if q then some y else none := by
  by_cases hp : p
  · rw [if_pos hp, if_pos (hpq.mp hp), hxy hp]
  · rw [if_neg hp, if_neg (hp ∘ hpq.mpr)]

/-- 45 R323: the candidates A to D of a macroblock of the grid are those at their offsets. -/
theorem State.nbr_eq_candidate (h : m < s.gridW.toNat * s.gridH.toNat) (x : Nbr) :
    s.nbr m x = s.candidate m x.offset.1 x.offset.2 := by
  have hx : s.mbx m < s.gridW.toNat := Nat.mod_lt _ (Nat.pos_of_mul_pos_right (Nat.zero_lt_of_lt h))
  have hy : s.mby m < s.gridH.toNat := Nat.div_lt_of_lt_mul h
  have hrow : 0 < s.mby m → s.gridW.toNat ≤ m := fun hpos => (Nat.div_pos_iff.mp hpos).2
  rw [State.candidate_eq]
  cases x <;>
    exact ite_some_congr (by simp only [Nbr.offset]; omega) fun _ => by simp only [Nbr.offset]; omega

theorem State.nbrsDone_eq_true_iff (h : m < s.gridW.toNat * s.gridH.toNat) :
    s.nbrsDone m = true ↔ s.NeighboursDone m := by
  have hoffsets : nbrOffsets = [Nbr.a, .b, .c, .d].map Nbr.offset := rfl
  simp only [State.nbrsDone, State.NeighboursDone, hoffsets, List.all_eq_true, List.forall_mem_map,
    ← State.nbr_eq_candidate h]
  refine forall₂_congr fun x _ => ?_
  cases s.nbr m x <;> simp

theorem State.mvPart_eq_partSpec (h : m < s.gridW.toNat * s.gridH.toNat) (slice : Word) (x : Nbr) :
    s.mvPart m slice x = s.partSpec m slice x.offset := by
  rw [State.mvPart, State.availNbr, State.partSpec, ← State.nbr_eq_candidate h]
  cases s.nbr m x with
  | none => rfl
  | some n =>
    by_cases hslice : (s.record n).slice = slice
    · simp [hslice]
    · simp [hslice]

end

/-! ### The predictor (45 R340) -/

theorem medianInt_eq_middle (a b c : Int) : medianInt a b c = middle a b c := by
  rw [medianInt, middle]
  omega

/-- The predictor from three parts: the vector of the only one with reference 0 when there is one, else the median,
component by component. -/
def partsPredictor (parts : List MvPart) : Int × Int :=
  match parts.filter (fun p => decide (p.ref = 0)), parts with
  | [p], _ => (p.x, p.y)
  | _, [p, q, r] => (middle p.x q.x r.x, middle p.y q.y r.y)
  | _, _ => (0, 0)

/-- By which of the three references are 0. -/
theorem mvSelect_eq_partsPredictor (p q r : MvPart) : mvSelect p q r = partsPredictor [p, q, r] := by
  simp only [mvSelect, partsPredictor, medianInt_eq_middle, List.filter_cons, List.filter_nil]
  by_cases hp : p.ref = 0 <;> by_cases hq : q.ref = 0 <;> by_cases hr : r.ref = 0 <;> simp [hp, hq, hr]

theorem State.mvpSpec_eq_partsPredictor (s : State) (m : Nat) (slice : Word) : s.mvpSpec m slice =
    let a := s.partSpec m slice (-1, 0)
    let b := s.partSpec m slice (0, -1)
    let c := if (s.partSpec m slice (1, -1)).avail then s.partSpec m slice (1, -1) else s.partSpec m slice (-1, -1)
    partsPredictor (if b.avail || c.avail || !a.avail then [a, b, c] else [a, a, a]) := rfl

theorem State.mvp_eq_mvpSpec {s : State} {m : Nat} (h : m < s.gridW.toNat * s.gridH.toNat) (slice : Word) :
    s.mvp m slice = s.mvpSpec m slice := by
  simp only [State.mvp, State.mvpSpec_eq_partsPredictor, State.mvPart_eq_partSpec h, Nbr.offset,
    mvSelect_eq_partsPredictor]
  generalize s.partSpec m slice (-1, 0) = a
  generalize s.partSpec m slice (0, -1) = b
  generalize (if (s.partSpec m slice (1, -1)).avail then s.partSpec m slice (1, -1) else
    s.partSpec m slice (-1, -1)) = c
  have hcond : (b.avail || c.avail || !a.avail) = !(!b.avail && !c.avail && a.avail) := by simp
  rw [hcond]
  cases !b.avail && !c.avail && a.avail <;> rfl

/-! ### MB_MVP (45 R374) -/

theorem exec_mbMvp (s : State) :
    exec .mbMvp s = .next (s.cleanCommand ((gridIndex s).bind fun m =>
      (require (s.nbrsDone m) .orderViolation).bind fun _ =>
        .ok (s.setResList 0 [(s.mvp m (s.record m).slice).1, (s.mvp m (s.record m).slice).2]))) := rfl

/-- Settles O48: the checks pass, and the predictor is that of the neighbours' positions. -/
theorem mbMvpQueries : Obligations.MbMvpQueries := by
  intro s hgrid hdone
  have hm := hgrid.mArg_lt
  rw [exec_mbMvp, gridIndex_eq_ok_iff.mpr ⟨hgrid, rfl⟩, ← State.mvp_eq_mvpSpec hm]
  refine s.cleanReport_of_ok rfl ?_
  rw [require_bind, if_pos ((State.nbrsDone_eq_true_iff hm).mpr hdone)]

end Sys2Proof.Machine
end

section
/-! PROOFS. The inverse transforms (44 R274, R275, R278, R280): where a checked computation completes, its result is the
unchecked one of section 1. -/

namespace Sys2Proof.Machine

/-! ### Checked values -/

theorem chk_eq_ok_iff {v u : Int} : chk v = .ok u ↔ inInt32 v = true ∧ u = v := by
  unfold chk
  split <;> simp [*, eq_comm]

/-- A checked value that passes goes on as itself. -/
theorem chk_bind_eq_ok_iff {α : Type} {v : Int} {f : Int → Except Err α} {y : α} :
    (chk v).bind f = .ok y ↔ inInt32 v = true ∧ f v = .ok y := by
  simp [except_bind_eq_ok_iff, chk_eq_ok_iff]

theorem toInt_toWord {v : Int} (h : inInt32 v = true) : (toWord v).toInt = v := by
  obtain ⟨hlow, hhigh⟩ := within_eq_true_iff.mp h
  rw [toWord, BitVec.toInt_ofInt]
  exact Int.bmod_eq_of_le (by omega) (by omega)

/-! ### Four values and sixteen by index -/

/-- The value at an index of 0, 1, 2, 3. -/
def Quad.get {α : Type} (q : Quad α) : Nat → α
  | 0 => q.x0
  | 1 => q.x1
  | 2 => q.x2
  | _ => q.x3

/-- Element (i, j). -/
def Mat.entry (m : Mat) (i j : Nat) : Int := (m.get i).get j

theorem Quad.zipE_get {α β γ : Type} {f : α → β → Except Err γ} {p : Quad α} {q : Quad β} {r : Quad γ}
    (h : p.zipE f q = .ok r) (i : Nat) : f (p.get i) (q.get i) = .ok (r.get i) := by
  simp only [Quad.zipE, bind, except_bind_eq_ok_iff, pure, Except.pure, Except.ok.injEq] at h
  obtain ⟨y0, h0, y1, h1, y2, h2, y3, h3, rfl⟩ := h
  match i with
  | 0 => exact h0
  | 1 => exact h1
  | 2 => exact h2
  | _ + 3 => exact h3

theorem Quad.mapE_get {α β : Type} {f : α → Except Err β} {q : Quad α} {r : Quad β} (h : q.mapE f = .ok r) (i : Nat) :
    f (q.get i) = .ok (r.get i) :=
  Quad.zipE_get (f := fun _ => f) (p := q) h i

theorem Quad.toList_getD {α : Type} (q : Quad α) {i : Nat} (hi : i < 4) (d : α) : q.toList.getD i d = q.get i := by
  interval_cases i <;> rfl

theorem Mat.mapE_entry {f : Int → Except Err Int} {m r : Mat} (h : m.mapE f = .ok r) (i j : Nat) :
    f (m.entry i j) = .ok (r.entry i j) :=
  Quad.mapE_get (Quad.mapE_get h i) j

theorem Mat.transpose_entry (m : Mat) (i j : Nat) : (Mat.transpose m).entry i j = m.entry j i := by
  rcases i with _ | _ | _ | i <;> rcases j with _ | _ | _ | j <;> rfl

theorem Mat.setDc_entry (m : Mat) (v : Int) (i j : Nat) : (m.setDc v).entry i j = withDc m.entry v i j := by
  rcases i with _ | _ | _ | i <;> rcases j with _ | _ | _ | j <;> rfl

theorem Mat.toList_getD (m : Mat) {i j : Nat} (hi : i < 4) (hj : j < 4) (d : Int) :
    m.toList.getD (4 * i + j) d = m.entry i j := by
  interval_cases i <;> interval_cases j <;> rfl

theorem Mat.ofFn_entry (f : Nat → Int) {i j : Nat} (hi : i < 4) (hj : j < 4) : (Mat.ofFn f).entry i j = f (4 * i + j) := by
  interval_cases i <;> interval_cases j <;> rfl

theorem Mat.ofVec_entry (v : Vec16) {i j : Nat} (hi : i < 4) (hj : j < 4) : (Mat.ofVec v).entry i j = mat4 v i j :=
  Mat.ofFn_entry _ hi hj

/-- A row function applied to the rows and then to the columns. -/
theorem Mat.rowsThenColumns_entry {f : Quad Int → Except Err (Quad Int)} {F : (Nat → Int) → Nat → Int}
    (hf : ∀ {q r : Quad Int}, f q = .ok r → ∀ k < 4, r.get k = F q.get k) {m r : Mat}
    (h : m.rowsThenColumns f = .ok r) {i j : Nat} (hi : i < 4) (hj : j < 4) :
    r.entry i j = F (fun a => F (m.entry a) j) i := by
  simp only [Mat.rowsThenColumns, bind, except_bind_eq_ok_iff, pure, Except.pure, Except.ok.injEq] at h
  obtain ⟨rows, hrows, cols, hcols, rfl⟩ := h
  have hcol : (Quad.get (Mat.transpose rows) j).get = fun a => F (m.entry a) j := by
    funext a
    exact (Mat.transpose_entry rows j a).trans (hf (Quad.mapE_get hrows a) j hj)
  rw [Mat.transpose_entry, ← hcol]
  exact hf (Quad.mapE_get hcols j) i hi

/-! ### CoreInv (44 R275) -/

theorem invButterfly_get {d y : Quad Int} (h : invButterfly d = .ok y) (k : Nat) : y.get k = invRow d.get k := by
  simp only [invButterfly, bind, chk_bind_eq_ok_iff, pure, Except.pure, Except.ok.injEq] at h
  obtain ⟨-, -, -, -, -, -, -, -, -, -, rfl⟩ := h
  rcases k with _ | _ | _ | k <;> rfl

theorem roundSample_eq_ok {h r : Int} (hr : roundSample h = .ok r) : inInt32 r = true ∧ r = (h + 32) / 64 := by
  simp only [roundSample, bind, chk_bind_eq_ok_iff, chk_eq_ok_iff] at hr
  obtain ⟨-, hrange, rfl⟩ := hr
  exact ⟨hrange, rfl⟩

theorem coreInv_entry {d r : Mat} (h : coreInv d = .ok r) {i j : Nat} (hi : i < 4) (hj : j < 4) :
    inInt32 (r.entry i j) = true ∧ r.entry i j = coreInvSpec d.entry i j := by
  obtain ⟨y, hy, hr⟩ := except_bind_eq_ok_iff.mp h
  obtain ⟨hrange, hval⟩ := roundSample_eq_ok (Mat.mapE_entry hr i j)
  refine ⟨hrange, ?_⟩
  rw [hval, Mat.rowsThenColumns_entry (fun h k _ => invButterfly_get h k) hy hi hj]
  rfl

/-- The butterfly reads four inputs alone. -/
theorem invRow_congr {f g : Nat → Int} (h : ∀ r < 4, f r = g r) (k : Nat) : invRow f k = invRow g k := by
  simp only [invRow, h 0 (by decide), h 1 (by decide), h 2 (by decide), h 3 (by decide)]

theorem coreInvSpec_congr {d e : Nat → Nat → Int} (h : ∀ i < 4, ∀ j < 4, d i j = e i j) (i j : Nat) :
    coreInvSpec d i j = coreInvSpec e i j := by
  rw [coreInvSpec, coreInvSpec, invRow_congr fun r hr => invRow_congr (h r hr) j]

/-! ### Dequant (44 R274) -/

theorem classMat_normAdjust_entry : ∀ r < 6, ∀ i < 4, ∀ j < 4,
    (classMat (normAdjust r)).entry i j = vTable r (posClass i j) := by decide

theorem dequant_entry {z d : Mat} {qp : Nat} (h : dequant z qp = .ok d) {i j : Nat} (hi : i < 4) (hj : j < 4) :
    d.entry i j = dequantSpec qp i j (z.entry i j) := by
  have hone := Quad.zipE_get (Quad.zipE_get h i) j
  simp only [dequantOne, bind, chk_bind_eq_ok_iff, chk_eq_ok_iff] at hone
  obtain ⟨-, -, hval⟩ := hone
  rw [dequantSpec, ← classMat_normAdjust_entry (qp % 6) (Nat.mod_lt _ (by decide)) i hi j hj, Mat.entry, hval, shl]
  push_cast
  rfl

/-! ### The DC transforms (44 R276, R278, R280) -/

theorem normAdjust_fst : ∀ r < 6, ((normAdjust r).1 : Int) = vTable r 0 := by decide

theorem dcScale_eq (qp : Nat) : dcScale qp = 16 * vTable (qp % 6) 0 := by
  rw [dcScale, normAdjust_fst _ (Nat.mod_lt _ (by decide))]

theorem hadamard_get {x y : Quad Int} (h : hadamard x = .ok y) :
    ∀ k < 4, y.get k = sum4 (fun b => hMat k b * x.get b) := by
  simp only [hadamard, bind, chk_bind_eq_ok_iff, pure, Except.pure, Except.ok.injEq] at h
  obtain ⟨-, -, -, -, rfl⟩ := h
  intro k hk
  interval_cases k <;> simp [sum4, hMat, Quad.get] <;> ring

/-- A sum of row sums is the product T X Tᵀ. -/
theorem sum4_sum4_eq_sandwich (t x : Nat → Nat → Int) (i j : Nat) :
    sum4 (fun a => t i a * sum4 (fun b => t j b * x a b)) = sandwich t x i j := by
  simp only [sum4, sandwich]
  ring

theorem sandwich_congr (t : Nat → Nat → Int) {x y : Nat → Nat → Int} (h : ∀ i < 4, ∀ j < 4, x i j = y i j)
    (i j : Nat) : sandwich t x i j = sandwich t y i j := by
  have hrow (a : Nat) (ha : a < 4) :
      sum4 (fun b => t i a * x a b * t j b) = sum4 (fun b => t i a * y a b * t j b) := by
    simp only [sum4, h a ha 0 (by decide), h a ha 1 (by decide), h a ha 2 (by decide), h a ha 3 (by decide)]
  rw [sandwich, sum4, hrow 0 (by decide), hrow 1 (by decide), hrow 2 (by decide), hrow 3 (by decide)]
  rfl

theorem hadamard4_entry {x y : Mat} (h : hadamard4 x = .ok y) {i j : Nat} (hi : i < 4) (hj : j < 4) :
    y.entry i j = sandwich hMat x.entry i j := by
  rw [Mat.rowsThenColumns_entry (F := fun d k => sum4 fun b => hMat k b * d b) hadamard_get h hi hj,
    sum4_sum4_eq_sandwich]

theorem dcInvOne4_eq_ok {qp : Nat} {f v : Int} (h : dcInvOne4 qp f = .ok v) : v = dcInv4Spec qp f := by
  simp only [dcInvOne4, bind, chk_bind_eq_ok_iff, dcScale_eq] at h
  obtain ⟨-, h⟩ := h
  rw [dcInv4Spec]
  by_cases hqp : 36 ≤ qp
  · rw [if_pos hqp, chk_eq_ok_iff] at h
    rw [if_pos hqp, h.2, shl]
    push_cast
    rfl
  · rw [if_neg hqp, chk_bind_eq_ok_iff, chk_eq_ok_iff] at h
    rw [if_neg hqp, h.2.2, sar, shl]
    push_cast
    rw [one_mul]

theorem dcInv4_entry {c r : Mat} {qp : Nat} (h : dcInv4 c qp = .ok r) {i j : Nat} (hi : i < 4) (hj : j < 4) :
    r.entry i j = dcInv4Spec qp (sandwich hMat c.entry i j) := by
  obtain ⟨f, hf, hr⟩ := except_bind_eq_ok_iff.mp h
  rw [dcInvOne4_eq_ok (Mat.mapE_entry hr i j), hadamard4_entry hf hi hj]

theorem hadamard2_get {x y : Quad Int} (h : hadamard2 x = .ok y) :
    ∀ k < 4, y.get k = sandwich2 h2Mat (fun i j => x.get (2 * i + j)) (k / 2) (k % 2) := by
  simp only [hadamard2, bind, chk_bind_eq_ok_iff, pure, Except.pure, Except.ok.injEq] at h
  obtain ⟨-, -, -, -, rfl⟩ := h
  intro k hk
  interval_cases k <;> simp [sandwich2, h2Mat, Quad.get] <;> ring

theorem dcInvOne2_eq_ok {qp : Nat} {f v : Int} (h : dcInvOne2 qp f = .ok v) : v = dcInv2Spec qp f := by
  simp only [dcInvOne2, bind, chk_bind_eq_ok_iff, chk_eq_ok_iff, dcScale_eq] at h
  obtain ⟨-, -, -, rfl⟩ := h
  rw [dcInv2Spec, sar, shl]
  push_cast
  rfl

theorem dcInv2_get {c r : Quad Int} {qp : Nat} (h : dcInv2 c qp = .ok r) {k : Nat} (hk : k < 4) :
    r.get k = dcInv2Spec qp (sandwich2 h2Mat (fun i j => c.get (2 * i + j)) (k / 2) (k % 2)) := by
  obtain ⟨f, hf, hr⟩ := except_bind_eq_ok_iff.mp h
  rw [dcInvOne2_eq_ok (Quad.mapE_get hr k), hadamard2_get hf k hk]

end Sys2Proof.Machine
end

section
/-! PROOFS. MB_DECODE's reconstruction and output (45 R361, R362). -/

namespace Sys2Proof.Machine

/-! ### Checked computations over a list -/

theorem mapErr_forall₂ {α β : Type} {f : α → Except Err β} {xs : List α} {ys : List β} (h : mapErr f xs = .ok ys) :
    List.Forall₂ (fun x y => f x = .ok y) xs ys := by
  induction xs generalizing ys with
  | nil =>
    cases h
    exact .nil
  | cons x xs ih =>
    obtain ⟨y, hy, hrest⟩ := except_bind_eq_ok_iff.mp h
    obtain ⟨zs, hzs, hcons⟩ := except_bind_eq_ok_iff.mp hrest
    cases hcons
    exact .cons hy (ih hzs)

theorem mapErr_range_getD {β : Type} {f : Nat → Except Err β} {n : Nat} {ys : List β}
    (h : mapErr f (List.range n) = .ok ys) {k : Nat} (hk : k < n) (d : β) : f k = .ok (ys.getD k d) := by
  have hall := mapErr_forall₂ h
  have hlen : k < ys.length := by rwa [← hall.length_eq, List.length_range]
  have hget := hall.get (by rwa [List.length_range]) hlen
  rwa [List.get_eq_getElem, List.get_eq_getElem, List.getElem_range, ← List.getD_eq_getElem _ d] at hget

/-! ### The blocks (45 R361) -/

/-- The dequantised coefficients of a block. -/
def dequantBlock (qp : Nat) (z : Vec16) (i j : Nat) : Int := dequantSpec qp i j (vecInt z (4 * i + j))

/-- `b` reconstructs `d`: its elements are those of CoreInv, in the range of a 32-bit element. -/
def Reconstructs (b : Mat) (d : Nat → Nat → Int) : Prop :=
  ∀ i < 4, ∀ j < 4, inInt32 (b.entry i j) = true ∧ b.entry i j = coreInvSpec d i j

theorem reconBlock_reconstructs {z : Vec16} {qp : Nat} {dc : Option Int} {b : Mat} (h : reconBlock z qp dc = .ok b) :
    Reconstructs b (match dc with
      | some v => withDc (dequantBlock qp z) v
      | none => dequantBlock qp z) := by
  obtain ⟨d, hd, hb⟩ := except_bind_eq_ok_iff.mp h
  have hdequant : ∀ i < 4, ∀ j < 4, d.entry i j = dequantBlock qp z i j := fun i hi j hj => by
    rw [dequant_entry hd hi hj, Mat.ofVec_entry _ hi hj]
    rfl
  intro i hi j hj
  obtain ⟨hrange, hval⟩ := coreInv_entry hb hi hj
  refine ⟨hrange, hval.trans (coreInvSpec_congr (fun i hi j hj => ?_) i j)⟩
  cases dc with
  | none => exact hdequant i hi j hj
  | some v =>
    change (d.setDc v).entry i j = _
    rw [Mat.setDc_entry]
    simp only [withDc, hdequant i hi j hj]

/-- The coefficients of luma block `b` before the inverse transform. -/
def MbRecord.lumaResidual (r : MbRecord) (qp b : Nat) : Nat → Nat → Int :=
  if r.intra then
    withDc (dequantBlock qp (r.coef .luma b))
      (dcInv4Spec qp (sandwich hMat (mat4 r.dcY) (lumaBy b) (lumaBx b)))
  else dequantBlock qp (r.coef .luma b)

/-- The coefficients of block `b` of a chroma component before the inverse transform. -/
def MbRecord.chromaResidual (r : MbRecord) (c : Comp) (qpc b : Nat) : Nat → Nat → Int :=
  withDc (dequantBlock qpc (r.coef c b))
    (dcInv2Spec qpc (sandwich2 h2Mat (fun i j => vecInt (r.dcc c) (2 * i + j)) (b / 2) (b % 2)))

theorem lumaBy_lumaBx_lt : ∀ b < 16, lumaBy b < 4 ∧ lumaBx b < 4 := by decide

theorem reconLuma_reconstructs {r : MbRecord} {qp : Nat} {blocks : List Mat} (h : reconLuma r qp = .ok blocks)
    {b : Nat} (hb : b < 16) (d : Mat) : Reconstructs (blocks.getD b d) (r.lumaResidual qp b) := by
  unfold reconLuma at h
  unfold MbRecord.lumaResidual
  by_cases hintra : r.intra = true
  · rw [if_pos hintra] at h
    rw [if_pos hintra]
    obtain ⟨dcY, hdc, hblocks⟩ := except_bind_eq_ok_iff.mp h
    obtain ⟨hby, hbx⟩ := lumaBy_lumaBx_lt b hb
    have hval : dcY.toList.getD (4 * lumaBy b + lumaBx b) 0 =
        dcInv4Spec qp (sandwich hMat (mat4 r.dcY) (lumaBy b) (lumaBx b)) := by
      rw [Mat.toList_getD _ hby hbx, dcInv4_entry hdc hby hbx,
        sandwich_congr hMat fun i hi j hj => Mat.ofVec_entry r.dcY hi hj]
    rw [← hval]
    exact reconBlock_reconstructs (mapErr_range_getD hblocks hb d)
  · rw [if_neg hintra] at h
    rw [if_neg hintra]
    exact reconBlock_reconstructs (mapErr_range_getD h hb d)

theorem reconChroma_reconstructs {r : MbRecord} {c : Comp} {qpc : Nat} {blocks : List Mat}
    (h : reconChroma r c qpc = .ok blocks) {b : Nat} (hb : b < 4) (d : Mat) :
    Reconstructs (blocks.getD b d) (r.chromaResidual c qpc b) := by
  obtain ⟨dc, hdc, hblocks⟩ := except_bind_eq_ok_iff.mp h
  have hval : dc.toList.getD b 0 =
      dcInv2Spec qpc (sandwich2 h2Mat (fun i j => vecInt (r.dcc c) (2 * i + j)) (b / 2) (b % 2)) := by
    rw [Quad.toList_getD _ hb, dcInv2_get hdc hb]
    rfl
  rw [MbRecord.chromaResidual, ← hval]
  exact reconBlock_reconstructs (mapErr_range_getD hblocks hb d)

/-- The blocks of the three components, each with its QP. -/
theorem reconstruct_eq_ok {cfg : Config} {r : MbRecord} {p : List Mat × List Mat × List Mat}
    (h : reconstruct cfg r = .ok p) :
    reconLuma r r.qp.toNat = .ok p.1 ∧ reconChroma r .cb (qpcSpec cfg r.qp.toInt) = .ok p.2.1 ∧
      reconChroma r .cr (qpcSpec cfg r.qp.toInt) = .ok p.2.2 := by
  simp only [reconstruct, qpChroma_eq_qpcSpec, bind, except_bind_eq_ok_iff, pure, Except.pure, Except.ok.injEq] at h
  obtain ⟨y, hy, cb, hcb, cr, hcr, rfl⟩ := h
  exact ⟨hy, hcb, hcr⟩

/-! ### A view of an output plane (45 R320, R362) -/

theorem State.OnlyPout.cfg {s t : State} (h : s.OnlyPout t) : t.cfg = s.cfg := by rw [h.eq]

theorem State.OnlyPout.gridW {s t : State} (h : s.OnlyPout t) : t.gridW = s.gridW := by rw [h.eq]

theorem State.OnlyPout.mbs {s t : State} (h : s.OnlyPout t) : t.mbs = s.mbs := by rw [h.eq]

theorem State.OnlyPout.viewRow {s t : State} (h : s.OnlyPout t) (p : Plane) (m i : Nat) :
    t.viewRow p m i = s.viewRow p m i := by rw [h.eq]; rfl

theorem State.OnlyPout.viewCol {s t : State} (h : s.OnlyPout t) (p : Plane) (m j : Nat) :
    t.viewCol p m j = s.viewCol p m j := by rw [h.eq]; rfl

theorem State.OnlyPout.inView_iff {s t : State} (h : s.OnlyPout t) {p : Plane} {m row col : Nat} :
    t.InView m p row col ↔ s.InView m p row col := by rw [h.eq]; rfl

theorem State.writePout_poutAt (s : State) (p q : Plane) (row col row' col' : Nat) (w : Word) :
    (s.writePout p row col w).poutAt q row' col' =
      if q = p ∧ planeIndex s.cfg q row' col' = planeIndex s.cfg p row col then w else s.poutAt q row' col' := by
  rw [State.poutAt, State.writePout, State.setPout_pout, State.setPout_cfg]
  by_cases hq : q = p
  · subst hq
    simp only [true_and, if_true, memRead_memWrite]
    rfl
  · simp only [hq, false_and, if_false]
    rfl

/-- The listed samples of macroblock m's view in an output plane take the values `f`. -/
def State.fillView (s : State) (p : Plane) (m : Nat) (f : Nat → Nat → Word) (l : List (Nat × Nat)) : State :=
  l.foldl (fun t ij => t.writePout p (t.viewRow p m ij.1) (t.viewCol p m ij.2) (f ij.1 ij.2)) s

theorem State.writeView_eq_fillView (s : State) (m : Nat) (c : Comp) (blocks : List Mat) :
    s.writeView m c blocks =
      s.fillView c.plane m (fun i j => toWord (viewSample blocks c i j)) (square (viewSide c.plane)) := rfl

theorem State.fillView_only (s : State) (p : Plane) (m : Nat) (f : Nat → Nat → Word) (l : List (Nat × Nat)) :
    s.OnlyPout (s.fillView p m f l) :=
  State.foldl_only _ (fun _ _ => State.writePout_only ..) l s

/-- `(row, col)` of plane `q` is where sample `ij` of macroblock m's view in plane `p` lies. -/
def State.ViewHits (s : State) (p : Plane) (m : Nat) (q : Plane) (row col : Nat) (ij : Nat × Nat) : Prop :=
  q = p ∧ planeIndex s.cfg q row col = planeIndex s.cfg p (s.viewRow p m ij.1) (s.viewCol p m ij.2)

theorem State.OnlyPout.viewHits_iff {s t : State} (h : s.OnlyPout t) {p q : Plane} {m row col : Nat} {ij : Nat × Nat} :
    t.ViewHits p m q row col ij ↔ s.ViewHits p m q row col ij := by
  obtain ⟨_, _, _, rfl⟩ := h
  exact Iff.rfl

/-- An element holds `w` after a view is written when every sample that lies on it has the value `w`, and one does or it
held `w` before. -/
theorem State.fillView_poutAt_eq {p : Plane} {m : Nat} {f : Nat → Nat → Word} {l : List (Nat × Nat)} {q : Plane}
    {row col : Nat} {w : Word} (s : State) (hval : ∀ ij ∈ l, s.ViewHits p m q row col ij → f ij.1 ij.2 = w)
    (h : s.poutAt q row col = w ∨ ∃ ij ∈ l, s.ViewHits p m q row col ij) :
    (s.fillView p m f l).poutAt q row col = w := by
  induction l generalizing s with
  | nil => exact h.resolve_right (by simp)
  | cons x xs ih =>
    have honly := s.writePout_only p (s.viewRow p m x.1) (s.viewCol p m x.2) (f x.1 x.2)
    have hwrite := s.writePout_poutAt p q (s.viewRow p m x.1) (s.viewCol p m x.2) row col (f x.1 x.2)
    refine ih _ (fun ij hij hhit => hval ij (List.mem_cons_of_mem x hij) (honly.viewHits_iff.mp hhit)) ?_
    by_cases hx : s.ViewHits p m q row col x
    · exact .inl (hwrite.trans ((if_pos hx).trans (hval x List.mem_cons_self hx)))
    · rw [hwrite.trans (if_neg hx)]
      refine h.imp_right fun ⟨ij, hij, hhit⟩ =>
        ⟨ij, (List.mem_cons.mp hij).resolve_left ?_, honly.viewHits_iff.mpr hhit⟩
      rintro rfl
      exact hx hhit

theorem mem_square {n : Nat} {ij : Nat × Nat} : ij ∈ square n ↔ ij.1 < n ∧ ij.2 < n := by
  simp [square, Prod.ext_iff]

theorem planeIndex_inj {c : Config} {p : Plane} {row col row' col' : Nat} (hcol : col < planeWidth c p)
    (hcol' : col' < planeWidth c p) (h : planeIndex c p row col = planeIndex c p row' col') :
    row = row' ∧ col = col' := by
  have hmod := congrArg (· % planeWidth c p) h
  have hdiv := congrArg (· / planeWidth c p) h
  have hpos : 0 < planeWidth c p := Nat.zero_lt_of_lt hcol
  simp only [planeIndex, Nat.mul_add_mod', Nat.mod_eq_of_lt, hcol, hcol'] at hmod
  simp only [planeIndex, Nat.add_comm, Nat.add_mul_div_right _ _ hpos, Nat.div_eq_of_lt, hcol, hcol'] at hdiv
  exact ⟨hdiv, hmod⟩

theorem viewSide_pos (p : Plane) : 0 < viewSide p := by cases p <;> decide

theorem planeWidth_eq (c : Config) (p : Plane) : planeWidth c p = viewSide p * c.maxMbw := by cases p <;> rfl

section
variable {s : State} {m : Nat} {p : Plane}

/-- A macroblock whose column lies in the largest grid has its views within the planes. -/
theorem State.viewCol_lt (hm : m % s.gridW.toNat < s.cfg.maxMbw) {j : Nat} (hj : j < viewSide p) :
    s.viewCol p m j < planeWidth s.cfg p := by
  have hnext : viewSide p * (m % s.gridW.toNat + 1) ≤ viewSide p * s.cfg.maxMbw := Nat.mul_le_mul_left _ hm
  rw [Nat.mul_succ] at hnext
  rw [planeWidth_eq, State.viewCol, State.mbx]
  omega

theorem State.ViewHits.eq (hm : m % s.gridW.toNat < s.cfg.maxMbw) {q : Plane} {row col : Nat} {ij : Nat × Nat}
    (h : s.ViewHits p m q row col ij) (hcol : col < planeWidth s.cfg q) (hj : ij.2 < viewSide p) :
    q = p ∧ row = s.viewRow p m ij.1 ∧ col = s.viewCol p m ij.2 := by
  obtain ⟨rfl, hindex⟩ := h
  exact ⟨rfl, planeIndex_inj hcol (State.viewCol_lt hm hj) hindex⟩

theorem State.inView_of_lt (s : State) (m : Nat) {i j : Nat} (hi : i < viewSide p) (hj : j < viewSide p) :
    s.InView m p (s.viewRow p m i) (s.viewCol p m j) := by
  have hdiv (x k : Nat) (hk : k < viewSide p) : (viewSide p * x + k) / viewSide p = x := by
    rw [Nat.mul_add_div (viewSide_pos p), Nat.div_eq_of_lt hk, Nat.add_zero]
  exact ⟨hdiv _ _ hi, hdiv _ _ hj⟩

/-- 45 R362: every element of the view is written. -/
theorem State.fillView_poutAt_inside (hm : m % s.gridW.toNat < s.cfg.maxMbw) (f : Nat → Nat → Word) {i j : Nat}
    (hi : i < viewSide p) (hj : j < viewSide p) :
    (s.fillView p m f (square (viewSide p))).poutAt p (s.viewRow p m i) (s.viewCol p m j) = f i j := by
  refine s.fillView_poutAt_eq (fun ij hij hhit => ?_) (.inr ⟨(i, j), mem_square.mpr ⟨hi, hj⟩, rfl, rfl⟩)
  obtain ⟨-, hrow, hcol⟩ := hhit.eq hm (State.viewCol_lt hm hj) (mem_square.mp hij).2
  rw [Nat.add_left_cancel hrow, Nat.add_left_cancel hcol]

/-- 45 R362: no other element is. -/
theorem State.fillView_poutAt_outside (hm : m % s.gridW.toNat < s.cfg.maxMbw) (f : Nat → Nat → Word) {q : Plane}
    {row col : Nat} (hcol : col < planeWidth s.cfg q) (hout : q = p → ¬ s.InView m p row col) :
    (s.fillView p m f (square (viewSide p))).poutAt q row col = s.poutAt q row col := by
  refine s.fillView_poutAt_eq (fun ij hij hhit => ?_) (.inl rfl)
  obtain ⟨hi, hj⟩ := mem_square.mp hij
  obtain ⟨hq, rfl, rfl⟩ := hhit.eq hm hcol hj
  exact absurd (s.inView_of_lt m hi hj) (hout hq)

end

/-! ### The three views (45 R362) -/

/-- The blocks of a component. -/
def compBlocks (p : List Mat × List Mat × List Mat) : Comp → List Mat
  | .luma => p.1
  | .cb => p.2.1
  | .cr => p.2.2

theorem State.writeView_only (s : State) (m : Nat) (c : Comp) (blocks : List Mat) :
    s.OnlyPout (s.writeView m c blocks) := by
  rw [State.writeView_eq_fillView]
  exact s.fillView_only ..

theorem State.writeViews_only (s : State) (m : Nat) (p : List Mat × List Mat × List Mat) :
    s.OnlyPout (s.writeViews m p) :=
  ((s.writeView_only m .luma p.1).trans (State.writeView_only _ m .cb p.2.1)).trans (State.writeView_only _ m .cr p.2.2)

section
variable {s t : State} {m : Nat} {c : Comp} (blocks : List Mat)

theorem State.OnlyPout.writeView_poutAt_inside (h : s.OnlyPout t) (hm : m % s.gridW.toNat < s.cfg.maxMbw) {i j : Nat}
    (hi : i < viewSide c.plane) (hj : j < viewSide c.plane) :
    (t.writeView m c blocks).poutAt c.plane (s.viewRow c.plane m i) (s.viewCol c.plane m j) =
      toWord (viewSample blocks c i j) := by
  rw [← h.cfg, ← h.gridW] at hm
  rw [State.writeView_eq_fillView, ← h.viewRow, ← h.viewCol]
  exact State.fillView_poutAt_inside hm _ hi hj

theorem State.OnlyPout.writeView_poutAt_outside (h : s.OnlyPout t) (hm : m % s.gridW.toNat < s.cfg.maxMbw) {q : Plane}
    {row col : Nat} (hcol : col < planeWidth s.cfg q) (hout : q = c.plane → ¬ s.InView m c.plane row col) :
    (t.writeView m c blocks).poutAt q row col = t.poutAt q row col := by
  simp only [← h.inView_iff] at hout
  rw [← h.cfg] at hm hcol
  rw [← h.gridW] at hm
  rw [State.writeView_eq_fillView]
  exact State.fillView_poutAt_outside hm _ hcol hout

end

section
variable {s : State} {m : Nat} (hm : m % s.gridW.toNat < s.cfg.maxMbw) (p : List Mat × List Mat × List Mat)
include hm

/-- The view of each component holds its blocks: the views lie in three planes. -/
theorem State.writeViews_poutAt_inside (c : Comp) {i j : Nat} (hi : i < viewSide c.plane) (hj : j < viewSide c.plane) :
    (s.writeViews m p).poutAt c.plane (s.viewRow c.plane m i) (s.viewCol c.plane m j) =
      toWord (viewSample (compBlocks p c) c i j) := by
  have hluma := s.writeView_only m .luma p.1
  have hcb := hluma.trans (State.writeView_only _ m .cb p.2.1)
  have hcol := State.viewCol_lt hm hj
  rw [State.writeViews]
  cases c with
  | luma =>
    rw [hcb.writeView_poutAt_outside _ hm hcol fun h => absurd h (by decide),
      hluma.writeView_poutAt_outside _ hm hcol fun h => absurd h (by decide)]
    exact (State.OnlyPout.refl s).writeView_poutAt_inside _ hm hi hj
  | cb =>
    rw [hcb.writeView_poutAt_outside _ hm hcol fun h => absurd h (by decide)]
    exact hluma.writeView_poutAt_inside _ hm hi hj
  | cr => exact hcb.writeView_poutAt_inside _ hm hi hj

theorem State.writeViews_poutAt_outside {q : Plane} {row col : Nat} (hcol : col < planeWidth s.cfg q)
    (hout : ¬ s.InView m q row col) : (s.writeViews m p).poutAt q row col = s.poutAt q row col := by
  have hluma := s.writeView_only m .luma p.1
  have hcb := hluma.trans (State.writeView_only _ m .cb p.2.1)
  rw [State.writeViews, hcb.writeView_poutAt_outside _ hm hcol fun h => h ▸ hout,
    hluma.writeView_poutAt_outside _ hm hcol fun h => h ▸ hout,
    (State.OnlyPout.refl s).writeView_poutAt_outside _ hm hcol fun h => h ▸ hout]

end

/-! ### The samples of a view -/

theorem viewSample_eq (blocks : List Mat) (c : Comp) (i j : Nat) :
    viewSample blocks c i j =
      (blocks.getD (c.blkAt (j / 4) (i / 4)) (Mat.ofFn fun _ => 0)).entry (i % 4) (j % 4) := by
  rw [← Mat.toList_getD _ (Nat.mod_lt _ (by decide)) (Nat.mod_lt _ (by decide)) 0]
  cases c <;> rfl

/-- The coefficients of block `b` of a component before the inverse transform, each component with its QP. -/
def MbRecord.residual (r : MbRecord) (cfg : Config) : Comp → Nat → Nat → Nat → Int
  | .luma => r.lumaResidual r.qp.toNat
  | c => r.chromaResidual c (qpcSpec cfg r.qp.toInt)

theorem blkAt_lt : ∀ x < 4, ∀ y < 4, blkAt x y < 16 := by decide

theorem rasterBlk_lt {x y : Nat} (hy : y < 2) (hx : x < 2) : 2 * y + x < 4 := by omega

theorem reconstruct_viewSample {cfg : Config} {r : MbRecord} {p : List Mat × List Mat × List Mat}
    (h : reconstruct cfg r = .ok p) (c : Comp) {i j : Nat} (hi : i < viewSide c.plane) (hj : j < viewSide c.plane) :
    (toWord (viewSample (compBlocks p c) c i j)).toInt =
      coreInvSpec (r.residual cfg c (c.blkAt (j / 4) (i / 4))) (i % 4) (j % 4) := by
  obtain ⟨hluma, hcb, hcr⟩ := reconstruct_eq_ok h
  have hblock : Reconstructs ((compBlocks p c).getD (c.blkAt (j / 4) (i / 4)) (Mat.ofFn fun _ => 0))
      (r.residual cfg c (c.blkAt (j / 4) (i / 4))) := by
    cases c with
    | luma => exact reconLuma_reconstructs hluma (blkAt_lt _ (Nat.div_lt_of_lt_mul hj) _ (Nat.div_lt_of_lt_mul hi)) _
    | cb => exact reconChroma_reconstructs hcb (rasterBlk_lt (Nat.div_lt_of_lt_mul hi) (Nat.div_lt_of_lt_mul hj)) _
    | cr => exact reconChroma_reconstructs hcr (rasterBlk_lt (Nat.div_lt_of_lt_mul hi) (Nat.div_lt_of_lt_mul hj)) _
  obtain ⟨hrange, hval⟩ := hblock (i % 4) (Nat.mod_lt _ (by decide)) (j % 4) (Nat.mod_lt _ (by decide))
  rw [viewSample_eq, toInt_toWord hrange, hval]

/-! ### MB_DECODE (45 R376) -/

theorem decodeCheck_ok_m {s : State} {a : DecodeArgs} (h : decodeCheck s = .ok a) : s.OnGrid ∧ a.m = s.mArg := by
  obtain ⟨m, hm, hrest⟩ := except_bind_eq_ok_iff.mp h
  obtain ⟨hgrid, rfl⟩ := gridIndex_eq_ok_iff.mp hm
  simp only [bind, except_bind_eq_ok_iff, pure, Except.pure, Except.ok.injEq] at hrest
  obtain ⟨_, -, _, -, _, -, rfl⟩ := hrest
  exact ⟨hgrid, rfl⟩

theorem decodeBody_eq_ok {s t : State} {a : DecodeArgs} (h : decodeBody s a = .ok t) :
    ∃ r st p rs, reconstruct s.cfg r = .ok p ∧
      t = (((s.setStream st).writeViews a.m p).setRecord a.m { r with done := true }).setResList 0 rs := by
  obtain ⟨⟨r, st⟩, -, hrest⟩ := except_bind_eq_ok_iff.mp h
  obtain ⟨p, hp, hbody⟩ := except_bind_eq_ok_iff.mp hrest
  exact ⟨r, st, p, _, hp, (Except.ok.inj hbody).symm⟩

theorem State.fail_status_ne_zero (s : State) (e : Err) : (s.fail e).status ≠ 0 := by
  change statusWord e.code 0 ≠ 0
  cases e <;> decide

theorem State.failMb_status_ne_zero (s : State) (e : Err) : (s.failMb e).status ≠ 0 := by
  change statusWord 9 e.code ≠ 0
  cases e <;> decide

/-- A macroblock command that ends with STATUS 0 has passed its checks and its coding phase. -/
theorem State.mbCommand_completed {α : Type} {s : State} {ws : α → WriteSet} {check : Except Err α}
    {body : α → Except Err State} (h : (s.mbCommand ws check body).status = 0) :
    ∃ a u, check = .ok a ∧ body a = .ok u ∧ s.mbCommand ws check body = u.succeed := by
  rcases s.mbCommand_cases ws check body with ⟨e, -, hend⟩ | ⟨a, e, -, -, hend⟩ | hdone
  · exact absurd (hend ▸ h) (s.fail_status_ne_zero e)
  · exact absurd (hend ▸ h) (State.failMb_status_ne_zero _ e)
  · exact hdone

theorem exec_mbDecode (s : State) :
    exec .mbDecode s = .next (s.mbCommand (fun a => mbWrites a.m true) (decodeCheck s) (decodeBody s)) := rfl

/-- The record that a completed command puts in the store, before its results. -/
theorem State.succeed_setRecord_record {s : State} {m : Nat} (h : m < s.mbs.length) (r : MbRecord) (rs : List Int) :
    ((s.setRecord m r).setResList 0 rs).succeed.record m = r := by
  rw [State.setResList_eq]
  change (s.mbs.set m r).getD m MbRecord.fresh = r
  simp [h]

theorem State.succeed_setRecord_poutAt (s : State) (m : Nat) (r : MbRecord) (rs : List Int) :
    ((s.setRecord m r).setResList 0 rs).succeed.poutAt = s.poutAt := by
  rw [State.setResList_eq]
  rfl

/-- A macroblock of a sound grid lies in the store, and its column in the largest grid. -/
theorem State.OnGrid.bounds {s : State} (h : s.OnGrid) (hgrid : s.GridOk) (hstore : s.StoreOk) :
    s.mArg < s.mbs.length ∧ s.mArg % s.gridW.toNat < s.cfg.maxMbw := by
  have hm := h.mArg_lt
  rw [State.GridOk, if_pos h.1] at hgrid
  obtain ⟨hw, hwmax, -, hhmax⟩ := hgrid
  refine ⟨?_, Nat.lt_of_lt_of_le (Nat.mod_lt _ hw) hwmax⟩
  rw [hstore]
  exact Nat.lt_of_lt_of_le hm (Nat.mul_le_mul hwmax hhmax)

/-- DONE plays no part in the reconstruction. -/
theorem reconstruct_done (cfg : Config) (r : MbRecord) : reconstruct cfg { r with done := true } = reconstruct cfg r := rfl

/-- What a completed MB_DECODE leaves: the record it reconstructs from, and the output planes with its views. -/
theorem execMbDecode_completed {s t : State} (hgridOk : s.GridOk) (hstore : s.StoreOk)
    (h : exec .mbDecode s = .next t) (hstatus : t.status = 0) :
    s.OnGrid ∧ ∃ st p, reconstruct s.cfg (t.record s.mArg) = .ok p ∧
      t.poutAt = ((s.setStream st).writeViews s.mArg p).poutAt := by
  cases (exec_mbDecode s).symm.trans h
  obtain ⟨a, u, ha, hu, hend⟩ := State.mbCommand_completed hstatus
  obtain ⟨hgrid, hmArg⟩ := decodeCheck_ok_m ha
  obtain ⟨r, st, p, rs, hp, rfl⟩ := decodeBody_eq_ok hu
  have hlen : s.mArg < ((s.setStream st).writeViews s.mArg p).mbs.length := by
    rw [(State.writeViews_only ..).mbs]
    exact (hgrid.bounds hgridOk hstore).1
  refine ⟨hgrid, st, p, ?_, ?_⟩
  · rw [hend, hmArg, State.succeed_setRecord_record hlen, reconstruct_done, hp]
  · rw [hend, hmArg, State.succeed_setRecord_poutAt]

/-- Settles O52: the views hold the blocks, which are the inverse transforms of the record's. -/
theorem mbDecodeReconstructs : Obligations.MbDecodeReconstructs := by
  intro s t hgridOk hstore h hstatus
  obtain ⟨hgrid, st, p, hp, hpout⟩ := execMbDecode_completed hgridOk hstore h hstatus
  have hm : s.mArg % (s.setStream st).gridW.toNat < (s.setStream st).cfg.maxMbw := (hgrid.bounds hgridOk hstore).2
  have hview (c : Comp) (i j : Nat) (hi : i < viewSide c.plane) (hj : j < viewSide c.plane) :
      (t.poutAt c.plane (s.viewRow c.plane s.mArg i) (s.viewCol c.plane s.mArg j)).toInt =
        coreInvSpec ((t.record s.mArg).residual s.cfg c (c.blkAt (j / 4) (i / 4))) (i % 4) (j % 4) := by
    rw [← reconstruct_viewSample hp c hi hj, ← State.writeViews_poutAt_inside hm p c hi hj, hpout]
    rfl
  refine ⟨fun i hi j hj => hview .luma i j hi hj, fun c hc i hi j hj => ?_, fun q row col hin hout => ?_⟩
  · rcases List.mem_pair.mp hc with rfl | rfl
    · exact hview .cb i j hi hj
    · exact hview .cr i j hi hj
  · have hcol : col < planeWidth s.cfg q := by simpa using (Bool.and_eq_true_iff.mp hin).2
    rw [hpout]
    exact State.writeViews_poutAt_outside hm p hcol hout

end Sys2Proof.Machine
end

section
/-! PROOFS. The system commands NOP and CLRERR (47 R390, R391). -/

namespace Sys2Proof.Machine

/-- 47 R390: NOP is the end of a command that completes, and collects nothing in ERRACC. -/
theorem exec_nop (s : State) : exec .nop s = .next { s with status := 0 } :=
  congrArg Host.Outcome.next s.succeed_eq

/-- 47 R391: CLRERR completes from ERRACC 0, so that the end of the command leaves it 0 (60 R409). -/
theorem exec_clrerr (s : State) : exec .clrerr s = .next { s with errAcc := 0, status := 0 } :=
  congrArg Host.Outcome.next (State.succeed_eq (s := { s with errAcc := 0 }))

/-- Settles O1: each word is its opcode, and each command is a completion, CLRERR's from ERRACC 0. -/
theorem systemCommands : Obligations.SystemCommands := by
  refine ⟨?nopWord, ?clrerrWord, fun s => ⟨exec_nop s, exec_clrerr s⟩⟩
  case nopWord => exact BitVec.eq_of_toNat_eq (toNat_encode .nop)
  case clrerrWord => exact BitVec.eq_of_toNat_eq (toNat_encode .clrerr)

end Sys2Proof.Machine
end

section
/-! PROOFS. The command interface and reset: words of the opcode map, the host's next command, the stops of a step, and
the state after reset (30 R101, R106; 20 R78; 70 R440). -/

namespace Sys2Proof.Machine

/-- Settles O3: each word is evaluated. -/
theorem specWordsDecode : Obligations.SpecWordsDecode := by
  unfold Obligations.SpecWordsDecode
  decide

/-- Settles O6: the queue's first access is the write of `w` to CMD. -/
theorem stepRunsDecodedCommand : Obligations.StepRunsDecodedCommand := by
  intro s w i h
  have hpending : (s.withFetchWord 32 w.toNat).pending = .write .cmd .word w :: s.pending := by
    rw [State.withFetchWord, BitVec.ofNat_toNat, BitVec.setWidth_eq]
  rw [step_of_cmdWrite hpending, issue_of_decode_ok h]
  rfl

/-! ### One access of the host (20 R78, R79) -/

theorem step_of_pending {s : State} {a : HostAccess} {rest : List HostAccess} (h : s.pending = a :: rest) :
    step s = access a { s with pending := rest } := by
  rw [step, h]

theorem access_of_not_wellFormed {a : HostAccess} (h : a.wellFormed = false) (s : State) :
    access a s = .refused (.hostAccess a) := by
  simp [access, h]

theorem access_read (s : State) (l : Loc) : access (.read l l.size) s =
    match s.hostRead l with
    | some v => .next { s with hostData := v }
    | none => .fault (.noSuchLocation l) :=
  if_pos (by simp [HostAccess.wellFormed])

theorem access_write (s : State) (l : Loc) (v : Word) : access (.write l l.size v) s =
    match s.hostRead l with
    | some _ => if l = .cmd then issue v s else .next (s.hostStore l v)
    | none => .fault (.noSuchLocation l) :=
  if_pos (by simp [HostAccess.wellFormed])

/-- The queue of accesses is nothing the host can read. -/
theorem State.hostRead_pending (s : State) (rest : List HostAccess) (l : Loc) :
    { s with pending := rest }.hostRead l = s.hostRead l := by
  cases l <;> rfl

/-- Settles O60, by the shape of the access and by whether its location exists. -/
theorem hostStopsAndIdle : Obligations.HostStopsAndIdle := by
  refine fun s => ⟨fun hidle => ?_, fun a rest hpending => ⟨fun hshape => ?_, fun l ha hnone => ?_⟩⟩
  · rw [step, hidle]
  · rw [step_of_pending hpending, access_of_not_wellFormed hshape]
  · rw [step_of_pending hpending]
    rcases ha with rfl | ⟨v, rfl⟩
    · rw [access_read, State.hostRead_pending, hnone]
    · rw [access_write, State.hostRead_pending, hnone]

/-! ### Reset (70 R440) -/

theorem step_of_reset {s : State} {rest : List HostAccess} (h : s.pending = .reset :: rest) :
    step s = .next { s with pending := rest }.doReset := by
  rw [step_of_pending h]
  rfl

/-- Settles O58: the values are those of State.resetOf. -/
theorem resetValues : Obligations.ResetValues := by
  have hzero (c : Config) : (State.resetOf c).cmd = 0 ∧ (State.resetOf c).status = 0 ∧ (State.resetOf c).errAcc = 0 ∧
      (State.resetOf c).bsBase = 0 ∧ (State.resetOf c).bsLen = 0 ∧ (State.resetOf c).bsPos = 0 ∧
      (State.resetOf c).gridW = 0 ∧ (State.resetOf c).gridH = 0 ∧ (State.resetOf c).gridValid = false :=
    ⟨rfl, rfl, rfl, rfl, rfl, rfl, rfl, rfl, rfl⟩
  exact ⟨hzero _, fun s rest h => ⟨_, step_of_reset h, hzero s.cfg, rfl, rfl⟩⟩

/-- A machine with parameters in range is sound after reset: nothing is bound, stored or coded. -/
theorem State.resetOf_inv {c : Config} (h : c.wf = true) : (State.resetOf c).Inv where
  params := h
  cursor := by
    refine ⟨Nat.le_refl _, ?_⟩
    exact Nat.zero_le _
  mem := ⟨rfl, rfl, rfl, rfl, rfl, rfl, rfl⟩
  grid := ⟨rfl, rfl⟩
  store := List.length_replicate
  status := by
    change statusOk 0#32
    decide
  errAcc := by
    change errAccOk 0#32
    decide
  records := by
    intro r hr hdone
    cases List.eq_of_mem_replicate hr
    cases hdone

/-- Settles O57: the parameters of State.reset are in range. -/
theorem resetMeetsInv : Obligations.ResetMeetsInv :=
  ⟨State.resetOf_inv (by decide), fun _ => State.resetOf_inv⟩

end Sys2Proof.Machine
end

section
/-! PROOFS. No codeword of a codebook begins another (42 R181). -/

namespace Sys2Proof.Machine

/-- Codewords of a codebook that differ in a bit that both have: neither begins with the other. -/
theorem not_isPrefix_of_codewordsDiffer {c d : Codeword} (hc : c.pat < 2 ^ c.len) (hd : d.pat < 2 ^ d.len)
    (h : CodewordsDiffer c d) : ¬ codewordBits c <+: codewordBits d := by
  rintro ⟨rest, hrest⟩
  refine not_codewordsDiffer_append (codewordBits c) rest ?_
  rwa [hrest, codewordOf_codewordBits hc, codewordOf_codewordBits hd]

theorem IsCodebook.prefixFree {σ : Type} {t : VlcTable σ} (ht : IsCodebook t) :
    (t.map (·.2)).Pairwise fun c d => ¬ codewordBits c <+: codewordBits d ∧ ¬ codewordBits d <+: codewordBits c := by
  obtain ⟨-, hentry, hpair⟩ := ht
  refine List.pairwise_map.mpr (hpair.imp_of_mem fun {e f} he hf hdiffer => ?_)
  obtain ⟨-, -, hpatE⟩ := hentry e he
  obtain ⟨-, -, hpatF⟩ := hentry f hf
  exact ⟨not_isPrefix_of_codewordsDiffer hpatE hpatF hdiffer, not_isPrefix_of_codewordsDiffer hpatF hpatE hdiffer.symm⟩

/-- Settles O24: every table is a codebook. -/
theorem tablesPrefixFree : Obligations.TablesPrefixFree :=
  ⟨fun c => (ctTable_isCodebook c).prefixFree, fun tc hlow hhigh => (tz4_isTotalZeros tc hhigh hlow).1.prefixFree,
    fun tc hlow hhigh => (tz22_isTotalZeros tc hhigh hlow).1.prefixFree,
    fun tc hlow hhigh => (tz24_isTotalZeros tc hhigh hlow).1.prefixFree, fun _ h => (rbTable_isCodebook h).prefixFree⟩

end Sys2Proof.Machine
end

section
/-! PROOFS. The host's reads and writes (20 R79, R83). -/

namespace Sys2Proof.Machine

/-- An element that exists, written, and the others. -/
theorem elem_setIfInBounds {n : Nat} {v : Vector Word n} {i : Nat} {old : Word} (hi : elem v i = some old) (w : Word)
    (j : Nat) : elem (v.setIfInBounds i w) j = if j = i then some w else elem v j := by
  have hlt : i < n := by
    by_contra hge
    simp [elem, Vector.getElem?_eq_none (Nat.le_of_not_lt hge)] at hi
  simp only [elem, Vector.getElem?_setIfInBounds]
  by_cases hj : j = i
  · simp [hj, hlt]
  · simp [hj, Ne.symm hj]

theorem State.writePin_cfg (s : State) (p : Plane) (row col : Nat) (w : Word) : (s.writePin p row col w).cfg = s.cfg :=
  State.setPin_cfg ..

theorem State.writePout_cfg (s : State) (p : Plane) (row col : Nat) (w : Word) :
    (s.writePout p row col w).cfg = s.cfg :=
  State.setPout_cfg ..

theorem State.writePin_pinAt (s : State) (p q : Plane) (row col row' col' : Nat) (w : Word) :
    (s.writePin p row col w).pinAt q row' col' =
      if q = p ∧ planeIndex s.cfg q row' col' = planeIndex s.cfg p row col then w else s.pinAt q row' col' := by
  rw [State.pinAt, State.writePin_cfg, State.writePin, State.setPin_pin]
  by_cases hq : q = p
  · subst hq
    simp only [true_and, if_true, memRead_memWrite]
    rfl
  · simp only [hq, false_and, if_false]
    rfl

/-- Elements that exist are the same when their planes and indices are. -/
theorem planeIndex_eq_iff {c : Config} {p q : Plane} {row col row' col' : Nat} (h : inPlane c p row col = true)
    (h' : inPlane c q row' col' = true) :
    (q = p ∧ planeIndex c q row' col' = planeIndex c p row col) ↔ q = p ∧ row' = row ∧ col' = col := by
  have hcol : col < planeWidth c p := by simpa using (Bool.and_eq_true_iff.mp h).2
  have hcol' : col' < planeWidth c q := by simpa using (Bool.and_eq_true_iff.mp h').2
  constructor
  · rintro ⟨rfl, hindex⟩
    exact ⟨rfl, planeIndex_inj hcol' hcol hindex⟩
  · rintro ⟨rfl, rfl, rfl⟩
    exact ⟨rfl, rfl⟩

/-- The locations other than CMD that a host write stores to (20 R79). -/
def hostWritable : Loc → Bool
  | .arg _ | .cb _ | .tb _ | .dcb _ | .bsbuf _ | .pin .. | .pout .. => true
  | _ => false

/-- What a read of a location gives after a write of `v` to it: a byte takes the low eight bits (log 7). -/
def storedValue (l : Loc) (v : Word) : Word :=
  match l with
  | .bsbuf _ => v &&& 0xFF#32
  | _ => v

theorem setWidth_setWidth_byte (v : Word) : (v.setWidth 8).setWidth 32 = v &&& 0xFF#32 := by
  have hmask : v.toNat &&& (255#32).toNat = v.toNat % 2 ^ 8 := Nat.and_two_pow_sub_one_eq_mod v.toNat 8
  apply BitVec.eq_of_toNat_eq
  rw [BitVec.toNat_and, BitVec.toNat_setWidth, BitVec.toNat_setWidth]
  omega

section
variable {s : State} {old v : Word}

theorem State.hostStore_hostRead_bsbuf {a : Nat} (h : s.hostRead (.bsbuf a) = some old) (l : Loc) :
    (s.hostStore (.bsbuf a) v).hostRead l = if l = .bsbuf a then some (v &&& 0xFF#32) else s.hostRead l := by
  have ha : a < s.cfg.bsBytes := by
    by_contra hge
    simp [State.hostRead, hge] at h
  cases l
  case bsbuf b =>
    by_cases hb : b = a
    · simp [State.hostStore, State.hostRead, memRead_memWrite, hb, ha, setWidth_setWidth_byte]
    · simp [State.hostStore, State.hostRead, memRead_memWrite, hb]
  all_goals rfl

theorem State.hostStore_hostRead_pin {p : Plane} {row col : Nat} (h : s.hostRead (.pin p row col) = some old) (l : Loc) :
    (s.hostStore (.pin p row col) v).hostRead l = if l = .pin p row col then some v else s.hostRead l := by
  have hin : inPlane s.cfg p row col = true := by
    by_contra hout
    simp [State.hostRead, hout] at h
  cases l
  case pin q row' col' =>
    by_cases hin' : inPlane s.cfg q row' col' = true
    · have hhit := planeIndex_eq_iff hin hin'
      simp only [State.hostStore, State.hostRead, State.writePin_cfg, State.writePin_pinAt, hin', hhit, Loc.pin.injEq,
        if_true]
      split <;> rfl
    · rw [if_neg (by rintro ⟨⟩; exact hin' hin)]
      simp [State.hostStore, State.hostRead, State.writePin_cfg, hin']
  all_goals cases p <;> rfl

theorem State.hostStore_hostRead_pout {p : Plane} {row col : Nat} (h : s.hostRead (.pout p row col) = some old)
    (l : Loc) :
    (s.hostStore (.pout p row col) v).hostRead l = if l = .pout p row col then some v else s.hostRead l := by
  have hin : inPlane s.cfg p row col = true := by
    by_contra hout
    simp [State.hostRead, hout] at h
  cases l
  case pout q row' col' =>
    by_cases hin' : inPlane s.cfg q row' col' = true
    · have hhit := planeIndex_eq_iff hin hin'
      simp only [State.hostStore, State.hostRead, State.writePout_cfg, State.writePout_poutAt, hin', hhit,
        Loc.pout.injEq, if_true]
      split <;> rfl
    · rw [if_neg (by rintro ⟨⟩; exact hin' hin)]
      simp [State.hostStore, State.hostRead, State.writePout_cfg, hin']
  all_goals cases p <;> rfl

/-- 20 R79, R83: a read after the host's write gives what it stored there, and every other location what it held. -/
theorem State.hostStore_hostRead {l : Loc} (h : s.hostRead l = some old) (hl : hostWritable l = true) (l' : Loc) :
    (s.hostStore l v).hostRead l' = if l' = l then some (storedValue l v) else s.hostRead l' := by
  cases l with
  | arg i =>
    cases l'
    case arg j =>
      simp only [Loc.arg.injEq]
      exact elem_setIfInBounds h v j
    all_goals rfl
  | cb i =>
    cases l'
    case cb j =>
      simp only [Loc.cb.injEq]
      exact elem_setIfInBounds h v j
    all_goals rfl
  | tb i =>
    cases l'
    case tb j =>
      simp only [Loc.tb.injEq]
      exact elem_setIfInBounds h v j
    all_goals rfl
  | dcb i =>
    cases l'
    case dcb j =>
      simp only [Loc.dcb.injEq]
      exact elem_setIfInBounds h v j
    all_goals rfl
  | bsbuf a => exact State.hostStore_hostRead_bsbuf h l'
  | pin p row col => exact State.hostStore_hostRead_pin h l'
  | pout p row col => exact State.hostStore_hostRead_pout h l'
  | _ => cases hl

theorem State.hostStore_of_not_stores {l : Loc} (hcmd : l ≠ .cmd) (hl : hostWritable l = false) : s.hostStore l v = s := by
  cases l <;> simp_all [hostWritable, State.hostStore]

end

/-- The queue and the host's read value are not changed by a store. -/
theorem State.hostStore_host (s : State) (l : Loc) (v : Word) :
    (s.hostStore l v).pending = s.pending ∧ (s.hostStore l v).hostData = s.hostData := by
  cases l
  case pin p _ _ => cases p <;> exact ⟨rfl, rfl⟩
  case pout p _ _ => cases p <;> exact ⟨rfl, rfl⟩
  all_goals exact ⟨rfl, rfl⟩

/-- Settles O59, by whether the location is one that a host write stores to. -/
theorem hostAccesses : Obligations.HostAccesses := by
  intro s l v old rest hold
  have hread : { s with pending := rest }.hostRead l = some old := (s.hostRead_pending rest l).trans hold
  refine ⟨fun hpending => ?_, fun hpending => ?_⟩
  · rw [step_of_pending hpending, access_read, hread]
  · have hstep (hcmd : l ≠ .cmd) : step s = .next ({ s with pending := rest }.hostStore l v) := by
      rw [step_of_pending hpending, access_write, hread]
      exact if_neg hcmd
    have hignored (hcmd : l ≠ .cmd) (hl : hostWritable l = false) : step s = .next { s with pending := rest } := by
      rw [hstep hcmd, State.hostStore_of_not_stores hcmd hl]
    have hstored (hcmd : l ≠ .cmd) (hl : hostWritable l = true) : ∃ t, step s = .next t ∧ t.pending = rest ∧
        t.hostData = s.hostData ∧ t.hostRead l = some (storedValue l v) ∧ ∀ l', l' ≠ l → t.hostRead l' = s.hostRead l' := by
      obtain ⟨hqueue, hdata⟩ := { s with pending := rest }.hostStore_host l v
      refine ⟨_, hstep hcmd, hqueue, hdata, ?_, fun l' hl' => ?_⟩
      · rw [State.hostStore_hostRead hread hl, if_pos rfl]
      · rw [State.hostStore_hostRead hread hl, if_neg hl', State.hostRead_pending]
    cases l with
    | cmd => trivial
    | arg _ | cb _ | tb _ | dcb _ | bsbuf _ | pin _ _ _ | pout _ _ _ => exact hstored nofun rfl
    | _ => exact hignored nofun rfl

end Sys2Proof.Machine
end

section
/-! PROOFS. A read after a write of the stream (40 R145; 20 R83). -/

namespace Sys2Proof.Machine

/-- Where a position lies plays no part in the bits of a stream. -/
theorem Stream.bits_congr {st st' : Stream} (hbuf : st'.buf = st.buf) (hbase : st'.base = st.base) (p n : Nat) :
    st'.bits p n = st.bits p n := by
  simp only [Stream.bits, Stream.bit, hbuf, hbase]

/-- Settles O18: BS_WRITE leaves its bits, and BS_READN takes their number. -/
theorem bsWriteThenRead : Obligations.BsWriteThenRead := by
  intro s n hn harg hroom
  obtain ⟨t, ht, hemits⟩ := ((bsWriteWrites s).2 n hn harg).2 hroom
  obtain ⟨hstate, ⟨hpos, hbits, -, -⟩, -⟩ := hemits
  rw [bitsOf_length] at hpos hbits
  have hlen : t.bsLen = s.bsLen := by rw [hstate]
  have hroom' : ({ t with bsPos := s.bsPos } : State).Room n := by
    change s.bsPos.toNat + n ≤ t.bsLen.toNat
    rwa [hlen]
  have harg' : ({ t with bsPos := s.bsPos } : State).argInt 0 = (n : Int) := by
    rw [← harg, hstate]
    rfl
  obtain ⟨u, v, hu, hv, hread, htakes⟩ := ((bsReadReads { t with bsPos := s.bsPos }).2.1 n hn harg').2 hroom'
  obtain ⟨hu', hupos, hres⟩ := htakes
  have hval : v = (s.getArg 1).toNat % 2 ^ n := by
    have hsame : bitsOf n v = bitsOf n (s.getArg 1).toNat := by
      rw [← hread, ← hbits]
      rfl
    rw [← Nat.mod_eq_of_lt hv, ← bitsVal_bitsOf, hsame, bitsVal_bitsOf]
  have hword : v < 2 ^ 32 := Nat.lt_of_lt_of_le hv (Nat.pow_le_pow_right (by decide) hn)
  refine ⟨t, u, ht, hu, by rw [hu'], ?_, ?_, by rw [hu']⟩
  · rw [hres 0 (by decide), ← hval]
    change (BitVec.ofInt 32 (v : Int)).toNat = v
    rw [BitVec.ofInt_natCast, BitVec.toNat_ofNat, Nat.mod_eq_of_lt hword]
  · apply BitVec.eq_of_toNat_eq
    rw [hupos, hpos]

end Sys2Proof.Machine
end

section
/-! PROOFS. MB_SETTYPE and MB_UNPACKTYPE are inverses (45 R336). -/

namespace Sys2Proof.Machine

/-- SetType answers just in its domain (45 R335). -/
theorem setType_eq_ok_iff {st intra pm cbp t : Int} : setType st intra pm cbp = .ok t ↔
    (st = 0 ∧ intra = 0 ∧ t = 0) ∨ ((st = 0 ∨ st = 2) ∧ intra = 1 ∧ 0 ≤ pm ∧ pm ≤ 3 ∧ 0 ≤ cbp ∧ cbp ≤ 47 ∧
      (cbp % 16 = 0 ∨ cbp % 16 = 15) ∧
      t = 1 + pm + 4 * (cbp / 16) + (if cbp % 16 = 15 then 12 else 0) + (if st = 0 then 5 else 0)) := by
  rw [setType_eq]
  generalize hv : 1 + pm + 4 * (cbp / 16) + (if cbp % 16 = 15 then 12 else 0) + (if st = 0 then 5 else 0) = v
  clear hv
  split_ifs <;> simp only [Except.ok.injEq, false_iff] <;> omega

/-- What SetType packs of an intra macroblock is unpacked to its mode and pattern (45 R336). -/
theorem unpackMbType_packed {st pm cbp : Int} (hst : st = 0 ∨ st = 2) (hpm0 : 0 ≤ pm) (hpm3 : pm ≤ 3) (hcbp0 : 0 ≤ cbp)
    (hcbp47 : cbp ≤ 47) (hluma : cbp % 16 = 0 ∨ cbp % 16 = 15) :
    unpackMbType st (1 + pm + 4 * (cbp / 16) + (if cbp % 16 = 15 then 12 else 0) + (if st = 0 then 5 else 0)) =
      .ok (1, pm, cbp) := by
  generalize ht : 1 + pm + 4 * (cbp / 16) + (if cbp % 16 = 15 then 12 else 0) + (if st = 0 then 5 else 0) = t
  obtain ⟨u, hu⟩ : ∃ u, (if st = 0 then t - 6 else t - 1) = u := ⟨_, rfl⟩
  have hu' : u = pm + 4 * (cbp / 16) + (if cbp % 16 = 15 then 12 else 0) := by omega
  have hmode : u % 4 = pm := by omega
  have hpattern : (if 12 ≤ u then 15 else 0) + 16 * (u / 4 % 3) = cbp := by omega
  rw [unpackMbType_eq_unpackPlace hst (by omega) (by omega), hu, unpackPlace, if_neg (by omega), if_neg (by omega),
    hmode, hpattern]

theorem inInt32_of_setType {st intra pm cbp t : Int} (h : setType st intra pm cbp = .ok t) : inInt32 t = true := by
  rw [inInt32, within_eq_true_iff]
  rcases setType_eq_ok_iff.mp h with ⟨-, -, rfl⟩ | ⟨-, -, hpm0, hpm3, hcbp0, hcbp47, -, ht⟩ <;> omega

/-- What a completed MB_SETTYPE leaves: the packed type in RES0, and its operands. -/
theorem exec_mbSettype_completed {s t : State} (h : exec .mbSettype s = .next t) (hstatus : t.status = 0) :
    ∃ v, setType (s.argInt 0) (s.argInt 1) (s.argInt 2) (s.argInt 3) = .ok v ∧ t = (s.setResInt 0 v).succeed := by
  rw [exec_mbSettype] at h
  cases h
  cases hv : setType (s.argInt 0) (s.argInt 1) (s.argInt 2) (s.argInt 3) with
  | ok v => exact ⟨v, rfl, State.cleanCommand_ok rfl⟩
  | error e =>
    rw [hv] at hstatus
    exact absurd hstatus (s.fail_status_ne_zero e)

/-- A command that reports three integers in range, as signed elements. -/
theorem State.Reports.toInt {s u : State} {a b c : Int} (h : s.Reports u [a, b, c]) (ha : inInt32 a = true)
    (hb : inInt32 b = true) (hc : inInt32 c = true) :
    u.status = 0 ∧ (u.getRes 0).toInt = a ∧ (u.getRes 1).toInt = b ∧ (u.getRes 2).toInt = c := by
  obtain ⟨hstate, hres⟩ := h
  refine ⟨by rw [hstate], ?_, ?_, ?_⟩
  · rw [hres 0 (by decide)]
    exact toInt_toWord ha
  · rw [hres 1 (by decide)]
    exact toInt_toWord hb
  · rw [hres 2 (by decide)]
    exact toInt_toWord hc

/-- Settles O45: UnpackMbType of what SetType packed. -/
theorem mbTypeRoundTrip : Obligations.MbTypeRoundTrip := by
  intro s t h hstatus
  obtain ⟨v, hv, rfl⟩ := exec_mbSettype_completed h hstatus
  have hres : ((s.setResInt 0 v).succeed.getRes 0).toInt = v :=
    (congrArg BitVec.toInt ((s.setResInt_getRes 0 0 v).trans (if_pos (by decide)))).trans
      (toInt_toWord (inInt32_of_setType hv))
  obtain ⟨r, hr⟩ : ∃ r : State, r = { (s.setResInt 0 v).succeed with
    arg := (s.setResInt 0 v).succeed.arg.setIfInBounds 1 ((s.setResInt 0 v).succeed.getRes 0) } := ⟨_, rfl⟩
  have hargs (i : Nat) : r.getArg i = if i = 1 ∧ 1 < 16 then (s.setResInt 0 v).succeed.getRes 0 else s.getArg i := by
    rw [hr]
    exact vec_getD_setIfInBounds ..
  have hslice : r.argInt 0 = s.argInt 0 := congrArg BitVec.toInt (hargs 0)
  have htype : r.argInt 1 = v := (congrArg BitVec.toInt (hargs 1)).trans hres
  rw [← hr]
  rcases setType_eq_ok_iff.mp hv with ⟨hst, hintra, rfl⟩ | ⟨hst, hintra, hpm0, hpm3, hcbp0, hcbp47, hluma, rfl⟩
  · have hunpack : unpackMbType (r.argInt 0) (r.argInt 1) = .ok (0, 0, -1) := by
      rw [hslice, htype, hst]
      rfl
    obtain ⟨u, hu, hreports⟩ := exec_mbUnpacktype_of_ok hunpack
    obtain ⟨hdone, h0, h1, h2⟩ := hreports.toInt (by decide) (by decide) (by decide)
    exact ⟨u, hu, hdone, fun hone => by omega, fun _ => ⟨h0, h1, h2⟩⟩
  · have hunpack : unpackMbType (r.argInt 0) (r.argInt 1) = .ok (1, s.argInt 2, s.argInt 3) := by
      rw [hslice, htype, unpackMbType_packed hst hpm0 hpm3 hcbp0 hcbp47 hluma]
    obtain ⟨u, hu, hreports⟩ := exec_mbUnpacktype_of_ok hunpack
    obtain ⟨hdone, h0, h1, h2⟩ := hreports.toInt (by decide) (within_eq_true_iff.mpr (by omega))
      (within_eq_true_iff.mpr (by omega))
    exact ⟨u, hu, hdone, fun _ => ⟨h0, h1, h2⟩, fun hzero => by omega⟩

end Sys2Proof.Machine
end

section
/-! PROOFS. The check phases of the grid commands (45 R327, R373 to R376; 60 R405, R413). -/

namespace Sys2Proof.Machine

/-! ### The macroblock operand and the order of macroblocks -/

theorem except_ok_bind {ε α β : Type} (a : α) (f : α → Except ε β) : (Except.ok a).bind f = f a := rfl

theorem except_error_bind {ε α β : Type} (e : ε) (f : α → Except ε β) : (Except.error e).bind f = .error e := rfl

theorem gridIndex_of_no_grid {s : State} (h : s.gridValid = false) : gridIndex s = .error .noGrid := by
  change (require _ _).bind _ = _
  rw [h]
  rfl

theorem gridIndex_of_not_onGrid {s : State} (h : s.gridValid = true) (hout : ¬ s.OnGrid) :
    gridIndex s = .error .badOperand := by
  change (require _ _).bind (fun _ => (require _ _).bind _) = _
  have hrange : decide (0 ≤ s.argInt 0 ∧ s.argInt 0 < s.gridW.toNat * s.gridH.toNat) = false :=
    decide_eq_false fun hrange => hout ⟨h, hrange⟩
  rw [h, hrange]
  rfl

theorem gridIndex_of_onGrid {s : State} (h : s.OnGrid) : gridIndex s = .ok s.mArg := gridIndex_eq_ok_iff.mpr ⟨h, rfl⟩

/-- OrderCheck(m), by whether it passes (45 R327). -/
theorem orderCheck_eq {s : State} {m : Nat} (hm : m < s.gridW.toNat * s.gridH.toNat) [Decidable (s.InOrder m)] :
    orderCheck s m = if s.InOrder m then .ok () else .error .orderViolation := by
  have hlast : (m == 0 || (s.record (m - 1)).done) = true ↔ (0 < m → (s.record (m - 1)).done = true) := by
    rw [Bool.or_eq_true, beq_iff_eq, Nat.pos_iff_ne_zero, or_iff_not_imp_left]
  have hiff : s.InOrder m ↔ (!(s.record m).done) = true ∧ s.nbrsDone m = true ∧
      (m == 0 || (s.record (m - 1)).done) = true := by
    rw [State.InOrder, State.nbrsDone_eq_true_iff hm, hlast, Bool.not_eq_true']
  change (require _ _).bind (fun _ => (require _ _).bind _) = _
  rw [require_bind, require_bind, require_eq]
  split_ifs <;> grind

/-- A check that has been decided, and the value that follows it. -/
theorem ite_bind_ok {α : Type} {p : Prop} [Decidable p] (e : Err) (a : α) :
    ((if p then .ok () else .error e : Except Err Unit).bind fun _ => .ok a) = if p then .ok a else .error e := by
  split <;> rfl

/-! ### The check phase of MB_ENCODE (45 R375) and of MB_DECODE (45 R376) -/

/-- The operands of MB_DECODE (45 R376). -/
def State.decodeArgs (s : State) : DecodeArgs :=
  { m := s.mArg, slice := s.getArg 1, st := s.argInt 2, sliceQp := s.argInt 9 }

theorem encodeCheck_of_index_error {s : State} {e : Err} (h : gridIndex s = .error e) : encodeCheck s = .error e := by
  change (gridIndex s).bind _ = _
  rw [h]
  rfl

theorem decodeCheck_of_index_error {s : State} {e : Err} (h : gridIndex s = .error e) : decodeCheck s = .error e := by
  change (gridIndex s).bind _ = _
  rw [h]
  rfl

/-- MB_ENCODE's checks after the macroblock index, in their order. -/
theorem encodeCheck_eq {s : State} (h : s.OnGrid) [Decidable s.EncodeOperandsOk] [Decidable (s.InOrder s.mArg)] :
    encodeCheck s = if ¬ (s.argInt 2 = 0 ∨ s.argInt 2 = 2) then .error .unsupported
      else if ¬ s.EncodeOperandsOk then .error .badOperand
      else if ¬ s.InOrder s.mArg then .error .orderViolation
      else .ok s.encodeArgs := by
  have hoperands : s.EncodeOperandsOk ↔ (isQp (s.argInt 9) && isQp (s.argInt 3)) = true ∧
      (s.argInt 4 = 0 ∨ s.argInt 4 = 1) ∧
      (if s.argInt 4 = 1 then (within 0 3 (s.argInt 5) && within 0 3 (s.argInt 6)) = true else s.argInt 2 = 0) := by
    simp only [State.EncodeOperandsOk, Bool.and_eq_true, isQp_eq_true_iff, within_eq_true_iff]
    split <;> omega
  simp only [encodeCheck, bind, require_bind, gridIndex_of_onGrid h, except_ok_bind, orderCheck_eq h.mArg_lt, pure,
    Except.pure, hoperands, sliceTypeOk_eq_true_iff, decide_eq_true_eq, ite_bind_ok]
  split_ifs <;> grind [State.encodeArgs]

/-- MB_DECODE's checks after the macroblock index, in their order. -/
theorem decodeCheck_eq {s : State} (h : s.OnGrid) [Decidable (s.InOrder s.mArg)] :
    decodeCheck s = if ¬ (s.argInt 2 = 0 ∨ s.argInt 2 = 2) then .error .unsupported
      else if ¬ (0 ≤ s.argInt 9 ∧ s.argInt 9 ≤ 51) then .error .badOperand
      else if ¬ s.InOrder s.mArg then .error .orderViolation
      else .ok s.decodeArgs := by
  simp only [decodeCheck, bind, require_bind, gridIndex_of_onGrid h, except_ok_bind, orderCheck_eq h.mArg_lt, pure,
    Except.pure, sliceTypeOk_eq_true_iff, isQp_eq_true_iff, ite_bind_ok]
  split_ifs <;> grind [State.decodeArgs]

theorem encodeCheck_eq_ok_iff {s : State} {a : EncodeArgs} :
    encodeCheck s = .ok a ↔ s.EncodeReady ∧ a = s.encodeArgs := by
  classical
  by_cases hgrid : s.OnGrid
  · rw [encodeCheck_eq hgrid, State.EncodeReady]
    split_ifs <;> grind
  · rw [State.EncodeReady]
    simp only [hgrid, false_and, iff_false]
    intro hok
    obtain ⟨m, hm, -⟩ := except_bind_eq_ok_iff.mp hok
    exact hgrid (gridIndex_eq_ok_iff.mp hm).1

theorem decodeCheck_eq_ok_iff {s : State} {a : DecodeArgs} :
    decodeCheck s = .ok a ↔ s.DecodeReady ∧ a = s.decodeArgs := by
  classical
  by_cases hgrid : s.OnGrid
  · rw [decodeCheck_eq hgrid, State.DecodeReady]
    split_ifs <;> grind
  · rw [State.DecodeReady]
    simp only [hgrid, false_and, iff_false]
    intro hok
    exact hgrid (decodeCheck_ok_m hok).1

/-! ### What a failed check leaves -/

theorem exec_mbEncode (s : State) :
    exec .mbEncode s = .next (s.mbCommand (fun a => mbWrites a.m false) (encodeCheck s) (encodeBody s)) := rfl

theorem State.mbCommand_of_check_error {α : Type} (s : State) (ws : α → WriteSet) {check : Except Err α}
    (body : α → Except Err State) {e : Err} (h : check = .error e) : s.mbCommand ws check body = s.endsClean e.code := by
  subst h
  exact s.fail_eq_endsClean e

theorem exec_mbEncode_of_check_error {s : State} {e : Err} (h : encodeCheck s = .error e) :
    exec .mbEncode s = .next (s.endsClean e.code) := by
  rw [exec_mbEncode, State.mbCommand_of_check_error _ _ _ h]

theorem exec_mbDecode_of_check_error {s : State} {e : Err} (h : decodeCheck s = .error e) :
    exec .mbDecode s = .next (s.endsClean e.code) := by
  rw [exec_mbDecode, State.mbCommand_of_check_error _ _ _ h]

theorem exec_mbNc (s : State) :
    exec .mbNc s = .next (s.cleanCommand ((gridIndex s).bind fun m => (compOf (s.argInt 1)).bind fun c =>
      (require (within 0 c.lastBlk (s.argInt 2)) .badOperand).bind fun _ =>
        (require (s.nbrsDone m) .orderViolation).bind fun _ =>
          .ok (s.setResList 0 [s.nc (s.record m) m c (s.argInt 2).toNat]))) := rfl

/-- An error of the macroblock index ends each grid command. -/
theorem exec_of_index_error {s : State} {e : Err} (h : gridIndex s = .error e) :
    ∀ i ∈ [Instr.mbEncode, .mbDecode, .mbNc, .mbMvp], exec i s = .next (s.endsClean e.code) := by
  intro i hi
  simp only [List.mem_cons, List.not_mem_nil, or_false] at hi
  rcases hi with rfl | rfl | rfl | rfl
  · exact exec_mbEncode_of_check_error (encodeCheck_of_index_error h)
  · exact exec_mbDecode_of_check_error (decodeCheck_of_index_error h)
  · rw [exec_mbNc, s.cleanBind_error h]
  · rw [exec_mbMvp, s.cleanBind_error h]

/-- Settles O46: each check is the first that fails. -/
theorem gridCommandChecks : Obligations.GridCommandChecks := by
  classical
  refine fun s => ⟨fun hnone => ?_, fun hvalid hout => ?_, fun hgrid h0 h2 i hi => ?_, fun hgrid hst => ?_,
    fun hgrid hnbrs => ?_⟩
  · exact exec_of_index_error (gridIndex_of_no_grid hnone)
  · exact exec_of_index_error (gridIndex_of_not_onGrid hvalid hout)
  · have hst : ¬ (s.argInt 2 = 0 ∨ s.argInt 2 = 2) := not_or.mpr ⟨h0, h2⟩
    rcases List.mem_pair.mp hi with rfl | rfl
    · exact exec_mbEncode_of_check_error ((encodeCheck_eq hgrid).trans (if_pos hst))
    · exact exec_mbDecode_of_check_error ((decodeCheck_eq hgrid).trans (if_pos hst))
  · refine ⟨fun hbad => exec_mbEncode_of_check_error (e := .badOperand) ?_,
      fun hok horder => exec_mbEncode_of_check_error (e := .orderViolation) ?_,
      fun hqp => exec_mbDecode_of_check_error (e := .badOperand) ?_,
      fun hlow hhigh horder => exec_mbDecode_of_check_error (e := .orderViolation) ?_⟩
    · rw [encodeCheck_eq hgrid, if_neg (not_not.mpr hst), if_pos hbad]
    · rw [encodeCheck_eq hgrid, if_neg (not_not.mpr hst), if_neg (not_not.mpr hok), if_pos horder]
    · rw [decodeCheck_eq hgrid, if_neg (not_not.mpr hst), if_pos (by omega)]
    · rw [decodeCheck_eq hgrid, if_neg (not_not.mpr hst), if_neg (not_not.mpr ⟨hlow, hhigh⟩), if_pos horder]
  · rw [exec_mbMvp, gridIndex_of_onGrid hgrid, except_ok_bind]
    refine congrArg _ (s.cleanBind_error (e := .orderViolation) ?_)
    rw [require_eq, if_neg (mt (State.nbrsDone_eq_true_iff hgrid.mArg_lt).mp hnbrs)]

end Sys2Proof.Machine
end

section
/-! PROOFS. MB_NC (45 R324 to R326, R373): the context of a block, in coordinates of the whole grid. -/

namespace Sys2Proof.Machine

/-! ### Neighbour blocks in coordinates of their macroblock (45 R321, R322, R324) -/

theorem Comp.across_pos (c : Comp) : 0 < c.across := by cases c <;> decide

theorem Comp.bx_by_lt {c : Comp} {b : Nat} (hb : b < c.across * c.across) : c.bx b < c.across ∧ c.by b < c.across := by
  cases c with
  | luma => exact (lumaBy_lumaBx_lt b hb).symm
  | cb | cr => exact ⟨Nat.mod_lt _ (by decide), Nat.div_lt_of_lt_mul hb⟩

theorem leftBlk_eq (c : Comp) (b : Nat) : leftBlk c b =
    if 0 < c.bx b then .own (c.blkAt (c.bx b - 1) (c.by b)) else .other .a (c.blkAt (c.across - 1) (c.by b)) := by
  cases c <;> rfl

theorem aboveBlk_eq {c : Comp} {b : Nat} (hb : b < c.across * c.across) : aboveBlk c b =
    if 0 < c.by b then .own (c.blkAt (c.bx b) (c.by b - 1)) else .other .b (c.blkAt (c.bx b) (c.across - 1)) := by
  cases c with
  | luma => rfl
  | cb | cr =>
    replace hb : b < 4 := hb
    interval_cases b <;> rfl

/-! ### The blocks of the grid -/

section
variable {s : State} {m : Nat} {c : Comp} {slice : Word}

/-- The count of the block at column `i`, row `j` of the macroblock at column `x`, row `y`. -/
theorem State.gridTotal_eq (s : State) (slice : Word) (c : Comp) (x y : Nat) {i j : Nat} (hi : i < c.across)
    (hj : j < c.across) : s.gridTotal slice c (c.across * x + i) (c.across * y + j) =
      if (s.record (y * s.gridW.toNat + x)).slice = slice then
        some ((s.record (y * s.gridW.toNat + x)).tc c (c.blkAt i j)) else none := by
  have hdiv (n k : Nat) (hk : k < c.across) : (c.across * n + k) / c.across = n := by
    rw [Nat.mul_add_div c.across_pos, Nat.div_eq_of_lt hk, Nat.add_zero]
  have hmod (n k : Nat) (hk : k < c.across) : (c.across * n + k) % c.across = k := by
    rw [Nat.mul_add_mod, Nat.mod_eq_of_lt hk]
  rw [State.gridTotal, hdiv x i hi, hdiv y j hj, hmod x i hi, hmod y j hj]

theorem State.mby_mul_add_mbx (s : State) (m : Nat) : s.mby m * s.gridW.toNat + s.mbx m = m := by
  rw [Nat.mul_comm]
  exact Nat.div_add_mod ..

theorem State.blkTc_other_of_nbr {x : Nbr} {n : Nat} (h : s.nbr m x = some n) (b : Nat) :
    s.blkTc (s.record m) m c (.other x b) =
      if (s.record n).slice = (s.record m).slice then some ((s.record n).tc c b) else none := by
  rw [State.blkTc, State.availNbr, h]
  split <;> simp_all

theorem State.blkTc_other_of_no_nbr {x : Nbr} (h : s.nbr m x = none) (b : Nat) :
    s.blkTc (s.record m) m c (.other x b) = none := by
  rw [State.blkTc, State.availNbr, h]
  rfl

/-- The left neighbour of a block, in its own macroblock or in the one to the left (45 R324). -/
theorem State.blkTc_leftBlk {b : Nat} (hb : b < c.across * c.across) :
    s.blkTc (s.record m) m c (leftBlk c b) =
      if c.across * s.mbx m + c.bx b = 0 then none
      else s.gridTotal (s.record m).slice c (c.across * s.mbx m + c.bx b - 1) (c.across * s.mby m + c.by b) := by
  obtain ⟨hbx, hby⟩ := Comp.bx_by_lt hb
  have hacross := c.across_pos
  rw [leftBlk_eq]
  by_cases hown : 0 < c.bx b
  · rw [if_pos hown, if_neg (by omega), Nat.add_sub_assoc hown, State.gridTotal_eq _ _ _ _ _ (by omega) hby,
      State.mby_mul_add_mbx, if_pos rfl]
    rfl
  · rw [if_neg hown]
    by_cases hleft : 0 < s.mbx m
    · have hrow := s.mby_mul_add_mbx m
      have hpos : 0 < c.across * s.mbx m := Nat.mul_pos hacross hleft
      have hcol : c.across * s.mbx m + c.bx b - 1 = c.across * (s.mbx m - 1) + (c.across - 1) := by
        rw [Nat.mul_sub_one]
        have : c.across ≤ c.across * s.mbx m := Nat.le_mul_of_pos_right _ hleft
        omega
      have hindex : s.mby m * s.gridW.toNat + (s.mbx m - 1) = m - 1 := by omega
      rw [if_neg (by omega), hcol, State.gridTotal_eq _ _ _ _ _ (by omega) hby, hindex,
        State.blkTc_other_of_nbr (x := .a) (n := m - 1) (if_pos hleft)]
    · have hzero : s.mbx m = 0 := by omega
      rw [State.blkTc_other_of_no_nbr (x := .a) (if_neg hleft), if_pos (by rw [hzero]; omega)]

/-- The above neighbour of a block, in its own macroblock or in the one above (45 R324). -/
theorem State.blkTc_aboveBlk {b : Nat} (hb : b < c.across * c.across) :
    s.blkTc (s.record m) m c (aboveBlk c b) =
      if c.across * s.mby m + c.by b = 0 then none
      else s.gridTotal (s.record m).slice c (c.across * s.mbx m + c.bx b) (c.across * s.mby m + c.by b - 1) := by
  obtain ⟨hbx, hby⟩ := Comp.bx_by_lt hb
  have hacross := c.across_pos
  rw [aboveBlk_eq hb]
  by_cases hown : 0 < c.by b
  · rw [if_pos hown, if_neg (by omega), Nat.add_sub_assoc hown, State.gridTotal_eq _ _ _ _ _ hbx (by omega),
      State.mby_mul_add_mbx, if_pos rfl]
    rfl
  · rw [if_neg hown]
    by_cases habove : 0 < s.mby m
    · have hrow := s.mby_mul_add_mbx m
      have hpos : 0 < c.across * s.mby m := Nat.mul_pos hacross habove
      have hcol : c.across * s.mby m + c.by b - 1 = c.across * (s.mby m - 1) + (c.across - 1) := by
        rw [Nat.mul_sub_one]
        have : c.across ≤ c.across * s.mby m := Nat.le_mul_of_pos_right _ habove
        omega
      have hindex : (s.mby m - 1) * s.gridW.toNat + s.mbx m = m - s.gridW.toNat := by
        have : s.gridW.toNat ≤ s.mby m * s.gridW.toNat := Nat.le_mul_of_pos_left _ habove
        rw [Nat.sub_one_mul]
        omega
      rw [if_neg (by omega), hcol, State.gridTotal_eq _ _ _ _ _ hbx (by omega), hindex,
        State.blkTc_other_of_nbr (x := .b) (n := m - s.gridW.toNat) (if_pos habove)]
    · have hzero : s.mby m = 0 := by omega
      rw [State.blkTc_other_of_no_nbr (x := .b) (if_neg habove), if_pos (by rw [hzero]; omega)]

theorem State.nc_eq_ncSpec {b : Nat} (hb : b < c.across * c.across) :
    s.nc (s.record m) m c b = s.ncSpec m c b := by
  rw [State.nc, State.blkTc_leftBlk hb, State.blkTc_aboveBlk hb]
  rfl

end

/-! ### MB_NC (45 R373) -/

theorem compOf_of_outside {v : Int} (h : v < 0 ∨ 2 < v) : compOf v = .error .badOperand := by
  simp (disch := omega) only [compOf, if_neg]

theorem Comp.lastBlk_eq (c : Comp) : (c.lastBlk : Int) = (c.across * c.across : Nat) - 1 := by cases c <;> rfl

/-- Settles O47, by the checks of the operands in their order. -/
theorem mbNcQueries : Obligations.MbNcQueries := by
  intro s hgrid
  have hm := hgrid.mArg_lt
  rw [exec_mbNc, gridIndex_of_onGrid hgrid, except_ok_bind]
  refine ⟨fun hcomp => congrArg _ (s.cleanBind_error (compOf_of_outside hcomp)), fun c hc => ?_⟩
  have hcomp : compOf (s.argInt 1) = .ok c := by
    rw [hc]
    cases c <;> rfl
  have hlast := c.lastBlk_eq
  rw [hcomp, except_ok_bind]
  refine ⟨fun hblk => ?_, fun b hb hblk => ?_⟩
  · refine congrArg _ (s.cleanBind_error (e := .badOperand) ?_)
    rw [require_eq, if_neg (by rw [within_eq_true_iff]; omega)]
  · have hrange : within 0 c.lastBlk (s.argInt 2) = true := by
      rw [within_eq_true_iff]
      omega
    rw [require_bind, if_pos hrange]
    refine ⟨fun hnbrs => ?_, fun hnbrs => ?_⟩
    · refine congrArg _ (s.cleanBind_error (e := .orderViolation) ?_)
      rw [require_eq, if_neg (mt (State.nbrsDone_eq_true_iff hm).mp hnbrs)]
    · refine s.cleanReport_of_ok ((require_ok ..).mpr ((State.nbrsDone_eq_true_iff hm).mpr hnbrs)) ?_
      rw [hblk, Int.toNat_natCast, State.nc_eq_ncSpec hb]

end Sys2Proof.Machine
end

section
/-! PROOFS. Readers of the bit stream (20 R80; 40 R143): what a decode procedure answers is fixed by the bits it takes,
and it takes no bit from the end of the stream on. -/

namespace Sys2Proof.Machine

/-! ### Streams with the same bits to come -/

/-- From their positions on the two streams have the same bits, to the same end. -/
def Stream.SameRest (st st' : Stream) : Prop :=
  st.len + st'.pos = st'.len + st.pos ∧ ∀ k, st.pos + k < st.len → st'.bit (st'.pos + k) = st.bit (st.pos + k)

theorem Stream.SameRest.skip {st st' : Stream} (h : st.SameRest st') (n : Nat) : (st.skip n).SameRest (st'.skip n) := by
  obtain ⟨hend, hbits⟩ := h
  refine ⟨by simp only [Stream.skip]; omega, fun k hk => ?_⟩
  simp only [Stream.skip] at hk ⊢
  rw [Nat.add_assoc, Nat.add_assoc]
  exact hbits (n + k) (by omega)

theorem Stream.SameRest.bits {st st' : Stream} (h : st.SameRest st') {n : Nat} (hn : st.pos + n ≤ st.len) :
    st'.bits st'.pos n = st.bits st.pos n := by
  obtain ⟨-, hbits⟩ := h
  refine List.map_congr_left fun k hk => hbits k ?_
  have := List.mem_range.mp hk
  omega

theorem Stream.SameRest.room_iff {st st' : Stream} (h : st.SameRest st') (n : Nat) :
    st'.pos + n ≤ st'.len ↔ st.pos + n ≤ st.len := by
  obtain ⟨hend, -⟩ := h
  omega

theorem Stream.skip_zero (st : Stream) : st.skip 0 = st := rfl

theorem Stream.skip_inj {st : Stream} {m n : Nat} (h : st.skip m = st.skip n) : m = n :=
  Nat.add_left_cancel (congrArg Stream.pos h)

theorem Stream.bits_skip (st : Stream) (m n : Nat) :
    st.bits st.pos (m + n) = st.bits st.pos m ++ (st.skip m).bits (st.skip m).pos n :=
  st.bits_add ..

theorem Stream.holds_bits {st : Stream} {n : Nat} (h : st.pos + n ≤ st.len) : st.Holds (st.bits st.pos n) :=
  ⟨by simpa, by rw [Stream.bits_length]⟩

/-! ### Readers -/

/-- A decode procedure: it only moves the position, past bits of the stream, and what it answers is fixed by the bits
to come (`same`), for a value by the bits taken (`holds`); a stream that ends within those is StreamExhausted
(`cut`). -/
structure IsReader {α : Type} (d : Stream → Except Err (α × Stream)) : Prop where
  takes : ∀ {st st' : Stream} {x : α}, d st = .ok (x, st') → ∃ n, st' = st.skip n ∧ (n = 0 ∨ st.pos + n ≤ st.len)
  same_ok : ∀ {st st₂ : Stream} {x : α} {n : Nat}, st.SameRest st₂ → d st = .ok (x, st.skip n) →
    d st₂ = .ok (x, st₂.skip n)
  same_error : ∀ {st st₂ : Stream} {e : Err}, st.SameRest st₂ → d st = .error e → d st₂ = .error e
  holds : ∀ {st st₂ : Stream} {x : α} {n : Nat}, d st = .ok (x, st.skip n) → st₂.Holds (st.bits st.pos n) →
    d st₂ = .ok (x, st₂.skip n)
  cut : ∀ {st st₂ : Stream} {x : α} {n k : Nat}, d st = .ok (x, st.skip n) → k < n →
    st₂.Holds (st.bits st.pos k) → st₂.len = st₂.pos + k → d st₂ = .error .streamExhausted

section
variable {α β : Type}

/-- A value that no bit is read for. -/
theorem IsReader.const (x : α) : IsReader fun st => .ok (x, st) where
  takes h := by
    cases h
    exact ⟨0, rfl, .inl rfl⟩
  same_ok {st st₂ x' n} _ h := by
    obtain ⟨rfl, hn⟩ := Prod.mk.inj (Except.ok.inj h)
    cases Stream.skip_inj (m := 0) hn
    rfl
  same_error _ h := by cases h
  holds {st st₂ x' n} h _ := by
    obtain ⟨rfl, hn⟩ := Prod.mk.inj (Except.ok.inj h)
    cases Stream.skip_inj (m := 0) hn
    rfl
  cut {st st₂ x' n k} h hk := by
    obtain ⟨-, hn⟩ := Prod.mk.inj (Except.ok.inj h)
    cases Stream.skip_inj (m := 0) hn
    cases hk

theorem IsReader.error (e : Err) : IsReader fun _ => (.error e : Except Err (α × Stream)) where
  takes h := by cases h
  same_ok _ h := by cases h
  same_error _ h := h
  holds h := by cases h
  cut h := by cases h

/-- One procedure after another. -/
theorem IsReader.bind {d : Stream → Except Err (α × Stream)} {f : α → Stream → Except Err (β × Stream)}
    (hd : IsReader d) (hf : ∀ x, IsReader (f x)) : IsReader fun st => (d st).bind fun p => f p.1 p.2 := by
  have hparts {st : Stream} {y : β} {n : Nat} (h : ((d st).bind fun p => f p.1 p.2) = .ok (y, st.skip n)) :
      ∃ x m k, d st = .ok (x, st.skip m) ∧ f x (st.skip m) = .ok (y, (st.skip m).skip k) ∧ n = m + k := by
    obtain ⟨⟨x, st₁⟩, hx, hy⟩ := except_bind_eq_ok_iff.mp h
    obtain ⟨m, rfl, -⟩ := hd.takes hx
    obtain ⟨k, hk, -⟩ := (hf x).takes hy
    refine ⟨x, m, k, hx, hk ▸ hy, ?_⟩
    rw [Stream.skip_skip] at hk
    exact (Stream.skip_inj hk).trans (Nat.add_comm ..)
  refine ⟨?takes, ?same_ok, ?same_error, ?holds, ?cut⟩
  case takes =>
    intro st st' y h
    obtain ⟨⟨x, st₁⟩, hx, hy⟩ := except_bind_eq_ok_iff.mp h
    obtain ⟨m, rfl, hm⟩ := hd.takes hx
    obtain ⟨k, hk, hroom⟩ := (hf x).takes hy
    refine ⟨m + k, by rw [hk, Stream.skip_skip, Nat.add_comm], ?_⟩
    simp only [Stream.skip] at hroom
    omega
  case same_ok =>
    intro st st₂ y n hsame h
    obtain ⟨x, m, k, hx, hy, rfl⟩ := hparts h
    rw [hd.same_ok hsame hx, except_ok_bind, (hf x).same_ok (hsame.skip m) hy, Stream.skip_skip, Nat.add_comm]
  case same_error =>
    intro st st₂ e hsame h
    rcases except_bind_eq_error_iff.mp h with hx | ⟨⟨x, st₁⟩, hx, hy⟩
    · rw [hd.same_error hsame hx]
      rfl
    · obtain ⟨m, rfl, -⟩ := hd.takes hx
      rw [hd.same_ok hsame hx, except_ok_bind, (hf x).same_error (hsame.skip m) hy]
  case holds =>
    intro st st₂ y n h hst
    obtain ⟨x, m, k, hx, hy, rfl⟩ := hparts h
    rw [Stream.bits_skip] at hst
    obtain ⟨hfirst, hrest⟩ := Stream.holds_append.mp hst
    rw [Stream.bits_length] at hrest
    rw [hd.holds hx hfirst, except_ok_bind, (hf x).holds hy hrest, Stream.skip_skip, Nat.add_comm]
  case cut =>
    intro st st₂ y n j h hj hst hend
    obtain ⟨x, m, k, hx, hy, rfl⟩ := hparts h
    rcases Nat.lt_or_ge j m with hjm | hjm
    · rw [hd.cut hx hjm hst hend]
      rfl
    · obtain ⟨i, rfl⟩ := Nat.exists_eq_add_of_le hjm
      rw [Stream.bits_skip] at hst
      obtain ⟨hfirst, hrest⟩ := Stream.holds_append.mp hst
      rw [Stream.bits_length] at hrest
      rw [hd.holds hx hfirst, except_ok_bind, (hf x).cut hy (by omega) hrest (by simp only [Stream.skip]; omega)]

theorem IsReader.map {d : Stream → Except Err (α × Stream)} (hd : IsReader d) (f : α → β) :
    IsReader fun st => (d st).bind fun p => .ok (f p.1, p.2) :=
  hd.bind (f := fun x st => .ok (f x, st)) fun _ => IsReader.const _

/-- A check before a procedure, of what has been read before. -/
theorem IsReader.require {d : Stream → Except Err (α × Stream)} (hd : IsReader d) (b : Bool) (e : Err) :
    IsReader fun st => (require b e).bind fun _ => d st := by
  cases b
  · exact IsReader.error e
  · exact hd

theorem IsReader.ite {d d' : Stream → Except Err (α × Stream)} {p : Prop} [Decidable p] (hd : IsReader d)
    (hd' : IsReader d') : IsReader fun st => if p then d st else d' st := by
  by_cases h : p
  · simpa only [if_pos h] using hd
  · simpa only [if_neg h] using hd'

/-- An answer that does not depend on the stream, before a procedure that it fixes. -/
theorem IsReader.bind_const (x : Except Err β) {f : β → Stream → Except Err (α × Stream)} (hf : ∀ y, IsReader (f y)) :
    IsReader fun st => x.bind fun y => f y st := by
  cases x with
  | error e => exact IsReader.error e
  | ok y => exact hf y

theorem IsReader.mapError {d : Stream → Except Err (α × Stream)} (hd : IsReader d) {f : Err → Err}
    (hf : f .streamExhausted = .streamExhausted) : IsReader fun st => (d st).mapError f := by
  have hok {x : Except Err (α × Stream)} {p : α × Stream} : x.mapError f = .ok p ↔ x = .ok p := by
    cases x <;> simp [Except.mapError]
  refine ⟨fun h => hd.takes (hok.mp h), fun hs h => hok.mpr (hd.same_ok hs (hok.mp h)), fun {st st₂ e} hs h => ?_,
    fun h hst => hok.mpr (hd.holds (hok.mp h) hst), fun {st st₂ x n k} h hk hst hend => ?_⟩
  · cases hx : d st with
    | error e' =>
      rw [hd.same_error hs hx, ← h, hx]
    | ok p =>
      rw [hx] at h
      cases h
  · rw [hd.cut (hok.mp h) hk hst hend]
    exact congrArg _ hf

theorem IsReader.read (n : Int) : IsReader fun st => st.read n := by
  by_cases hn : 0 ≤ n ∧ n ≤ 32
  · obtain ⟨m, rfl⟩ := Int.eq_ofNat_of_zero_le hn.1
    have hm : m ≤ 32 := by omega
    have hok {st st' : Stream} {x : Nat} (h : st.read m = .ok (x, st')) :
        st.pos + m ≤ st.len ∧ st' = st.skip m ∧ x = bitsVal (st.bits st.pos m) := by
      rw [Stream.read_eq _ hm] at h
      split at h
      · next hroom =>
        cases h
        exact ⟨hroom, rfl, rfl⟩
      · cases h
    have hread {st : Stream} (h : st.pos + m ≤ st.len) : st.read m = .ok (bitsVal (st.bits st.pos m), st.skip m) := by
      rw [Stream.read_eq _ hm, if_pos h]
      rfl
    have hshort {st : Stream} (h : ¬ st.pos + m ≤ st.len) : st.read m = .error .streamExhausted := by
      rw [Stream.read_eq _ hm, if_neg h]
    refine ⟨?takes, ?same_ok, ?same_error, ?holds, ?cut⟩
    case takes =>
      intro st st' x h
      obtain ⟨hroom, rfl, -⟩ := hok h
      exact ⟨m, rfl, .inr hroom⟩
    case same_ok =>
      intro st st₂ x n hsame h
      obtain ⟨hroom, hn, rfl⟩ := hok h
      cases Stream.skip_inj hn
      rw [hread ((hsame.room_iff m).mpr hroom), hsame.bits hroom]
    case same_error =>
      intro st st₂ e hsame h
      have hroom : ¬ st.pos + m ≤ st.len := fun hroom => by
        rw [hread hroom] at h
        cases h
      rw [hshort hroom] at h
      rw [hshort (mt (hsame.room_iff m).mp hroom), ← h]
    case holds =>
      intro st st₂ x n h hst
      obtain ⟨-, hn, rfl⟩ := hok h
      cases Stream.skip_inj hn
      obtain ⟨hroom, hbits⟩ := hst
      rw [Stream.bits_length] at hroom hbits
      rw [hread hroom, hbits]
    case cut =>
      intro st st₂ x n k h hk hst hend
      obtain ⟨-, hn, -⟩ := hok h
      cases Stream.skip_inj hn
      exact hshort (by omega)
  · have hbad : (fun st : Stream => st.read n) = fun _ => .error .badOperand :=
      funext fun st => st.read_bad (by omega)
    rw [hbad]
    exact IsReader.error _

/-- One bit is a read of one bit. -/
theorem Stream.readBit_eq_read (st : Stream) : st.readBit = (st.read (1 : Nat)).bind fun p => .ok (decide (p.1 = 1), p.2) := by
  rw [Stream.readBit_eq, Stream.read_eq _ (by decide)]
  split
  · rw [except_ok_bind, Stream.bitsVal_bits_one]
    cases st.bit st.pos <;> rfl
  · rfl

theorem IsReader.readBit : IsReader Stream.readBit := by
  rw [funext Stream.readBit_eq_read]
  exact (IsReader.read (1 : Nat)).map fun v => decide (v = 1)

/-! ### The codes -/

theorem IsReader.countZeros (n : Nat) : IsReader (countZeros n) := by
  induction n with
  | zero => exact IsReader.error _
  | succ n ih =>
    refine IsReader.readBit.bind (f := fun b st => if b then .ok (0, st) else
      (Machine.countZeros n st).bind fun p => .ok (p.1 + 1, p.2)) fun b => ?_
    exact (IsReader.const 0).ite (ih.map _)

theorem IsReader.ueDecode : IsReader ueDecode :=
  (IsReader.countZeros 16).bind fun z => (IsReader.read z).map fun suffix => 2 ^ z - 1 + suffix

theorem IsReader.seDecode : IsReader seDecode := IsReader.ueDecode.map _

theorem IsReader.walkFrom (t : VlcTable α) (fuel : Nat) (c : Codeword) : IsReader (walkFrom t fuel c) := by
  induction fuel generalizing c with
  | zero => exact IsReader.error _
  | succ fuel ih =>
    refine IsReader.readBit.bind (f := fun b st => match tableSymbol t ⟨c.len + 1, 2 * c.pat + b.toNat⟩ with
      | some x => .ok (x, st)
      | none => Machine.walkFrom t fuel ⟨c.len + 1, 2 * c.pat + b.toNat⟩ st) fun b => ?_
    cases tableSymbol t ⟨c.len + 1, 2 * c.pat + b.toNat⟩ with
    | some x => exact IsReader.const x
    | none => exact ih _

theorem IsReader.vlcWalk (t : VlcTable α) : IsReader (vlcWalk t) := IsReader.walkFrom ..

theorem IsReader.cbpDecode (intra : Bool) : IsReader (cbpDecode intra) :=
  IsReader.ueDecode.bind fun k => (IsReader.const (cbpTab intra k)).require (decide (k ≤ 47)) .tableMiss

end

end Sys2Proof.Machine
end

section
/-! PROOFS. The decode procedures of CAVLC and of the macroblock layer are readers (43 R241; 45 R360). -/

namespace Sys2Proof.Machine

/-! ### CavlcDecode (43 R241) -/

section
variable {α β : Type}

/-- The number of bits a reader takes is part of what it answers. -/
theorem IsReader.counted {d : Stream → Except Err (α × Stream)} (hd : IsReader d) (f : Nat → α → β) :
    IsReader fun st => (d st).bind fun p => .ok (f (p.2.pos - st.pos) p.1, p.2) := by
  have hok {st : Stream} {y : β} {n : Nat}
      (h : ((d st).bind fun p => .ok (f (p.2.pos - st.pos) p.1, p.2)) = .ok (y, st.skip n)) :
      ∃ x, d st = .ok (x, st.skip n) ∧ y = f n x := by
    obtain ⟨⟨x, st₁⟩, hx, hy⟩ := except_bind_eq_ok_iff.mp h
    obtain ⟨rfl, rfl⟩ := Prod.mk.inj (Except.ok.inj hy)
    exact ⟨x, hx, by simp only [Stream.skip, Nat.add_sub_cancel_left]⟩
  have hval (st : Stream) (x : α) (n : Nat) : (Except.ok (x, st.skip n) : Except Err (α × Stream)).bind
      (fun p => .ok (f (p.2.pos - st.pos) p.1, p.2)) = .ok (f n x, st.skip n) := by
    rw [except_ok_bind]
    simp only [Stream.skip, Nat.add_sub_cancel_left]
  refine ⟨?takes, ?same_ok, ?same_error, ?holds, ?cut⟩
  case takes =>
    intro st st' y h
    obtain ⟨⟨x, st₁⟩, hx, hy⟩ := except_bind_eq_ok_iff.mp h
    obtain ⟨-, rfl⟩ := Prod.mk.inj (Except.ok.inj hy)
    exact hd.takes hx
  case same_ok =>
    intro st st₂ y n hsame h
    obtain ⟨x, hx, rfl⟩ := hok h
    rw [hd.same_ok hsame hx, hval]
  case same_error =>
    intro st st₂ e hsame h
    rcases except_bind_eq_error_iff.mp h with hx | ⟨_, _, hy⟩
    · rw [hd.same_error hsame hx]
      rfl
    · cases hy
  case holds =>
    intro st st₂ y n h hst
    obtain ⟨x, hx, rfl⟩ := hok h
    rw [hd.holds hx hst, hval]
  case cut =>
    intro st st₂ y n k h hk hst hend
    obtain ⟨x, hx, rfl⟩ := hok h
    rw [hd.cut hx hk hst hend]
    rfl

end

theorem IsReader.prefixDecode : IsReader prefixDecode := IsReader.countZeros _

theorem IsReader.decodeLevel (reduced : Bool) (sL : Nat) : IsReader (decodeLevel reduced sL) :=
  IsReader.prefixDecode.bind fun p => (IsReader.read (levelSuffixSize p sL)).map fun suffix =>
    levelOf (levelCodeFrom p suffix sL reduced)

theorem IsReader.decodeLevels (n : Nat) (reduced : Bool) (sL : Nat) : IsReader (decodeLevels n reduced sL) := by
  induction n generalizing reduced sL with
  | zero => exact IsReader.const []
  | succ n ih => exact (IsReader.decodeLevel reduced sL).bind fun lv => (ih false (nextSuffix sL lv)).map (lv :: ·)

theorem IsReader.decodeSigns (n : Nat) : IsReader (decodeSigns n) := by
  induction n with
  | zero => exact IsReader.const []
  | succ n ih => exact IsReader.readBit.bind fun b => ih.map fun rest => (if b then -1 else 1) :: rest

theorem decodeRuns_succ (n zl : Nat) (st : Stream) : decodeRuns (n + 1) zl st =
    if 0 < zl then (vlcWalk (rbTable zl) st).bind fun p => (require (decide (p.1 ≤ zl)) .codecError).bind fun _ =>
      (decodeRuns n (zl - p.1) p.2).bind fun q => .ok ((p.1 :: q.1.1, q.1.2), q.2)
    else (decodeRuns n zl st).bind fun q => .ok ((0 :: q.1.1, q.1.2), q.2) := rfl

theorem IsReader.decodeRuns (n zl : Nat) : IsReader (decodeRuns n zl) := by
  induction n generalizing zl with
  | zero => exact IsReader.const ([], zl)
  | succ n ih =>
    rw [funext (decodeRuns_succ n zl)]
    refine IsReader.ite ?_ ((ih zl).map fun q => (0 :: q.1, q.2))
    exact (IsReader.vlcWalk _).bind fun r =>
      ((ih (zl - r)).map fun q => (r :: q.1, q.2)).require (decide (r ≤ zl)) .codecError

theorem IsReader.decodeTotalZeros (maxN tc : Nat) : IsReader (decodeTotalZeros maxN tc) :=
  IsReader.ite ((IsReader.vlcWalk _).bind fun tz =>
    (IsReader.const tz).require (decide (tz ≤ maxN - tc)) .codecError) (IsReader.const 0)

theorem IsReader.decodeResidual (maxN tc t1 : Nat) : IsReader (decodeResidual maxN tc t1) :=
  (IsReader.decodeSigns t1).bind fun ones => (IsReader.decodeLevels _ _ _).bind fun rest =>
    (IsReader.decodeTotalZeros maxN tc).bind fun tz => (IsReader.decodeRuns (tc - 1) tz).map fun q =>
      placeLevels maxN (ones ++ rest) (q.1 ++ [q.2])

/-- What follows a coeff_token: the coefficients (43 R241). -/
def decodeCoeffs (maxN : Nat) (x : Nat × Nat) (st : Stream) : Except Err (List Int × Stream) :=
  (require (decide (x.1 ≤ maxN)) .codecError).bind fun _ =>
    if x.1 = 0 then .ok (List.replicate maxN 0, st) else decodeResidual maxN x.1 x.2 st

/-- A coeff_token and what follows it (43 R241). -/
def decodeBlock (maxN : Nat) (nc : Int) (st : Stream) : Except Err (((Nat × Nat) × List Int) × Stream) :=
  (ncClass nc).bind fun c => (vlcWalk (ctTable c) st).bind fun p =>
    (decodeCoeffs maxN p.1 p.2).bind fun q => .ok ((p.1, q.1), q.2)

theorem cavlcDecodeRaw_eq (maxN : Nat) (nc : Int) (st : Stream) : cavlcDecodeRaw maxN nc st =
    (decodeBlock maxN nc st).bind fun p => .ok (⟨p.2.pos - st.pos, p.1.1.1, p.1.1.2, p.1.2⟩, p.2) := by
  unfold cavlcDecodeRaw decodeBlock decodeCoeffs
  cases ncClass nc with
  | error e => rfl
  | ok c =>
    change (vlcWalk (ctTable c) st).bind _ = ((vlcWalk (ctTable c) st).bind _).bind _
    cases vlcWalk (ctTable c) st with
    | error e => rfl
    | ok p =>
      obtain ⟨⟨tc, t1⟩, st₁⟩ := p
      change (require _ _).bind _ = (((require _ _).bind _).bind _).bind _
      cases decide (tc ≤ maxN) with
      | false => rfl
      | true =>
        by_cases htc : tc = 0
        · simp only [htc]
          rfl
        · change (if tc = 0 then _ else _) = ((if tc = 0 then _ else _ : Except Err _).bind _).bind _
          rw [if_neg htc, if_neg htc]
          change (decodeResidual maxN tc t1 st₁).bind _ = _
          cases decodeResidual maxN tc t1 st₁ <;> rfl

theorem IsReader.decodeCoeffs (maxN : Nat) (x : Nat × Nat) : IsReader (decodeCoeffs maxN x) :=
  ((IsReader.const _).ite (IsReader.decodeResidual ..)).require _ _

theorem IsReader.decodeBlock (maxN : Nat) (nc : Int) : IsReader (decodeBlock maxN nc) :=
  IsReader.bind_const (ncClass nc) (f := fun c st => (Machine.vlcWalk (ctTable c) st).bind fun p =>
    (Machine.decodeCoeffs maxN p.1 p.2).bind fun q => .ok ((p.1, q.1), q.2)) fun c =>
      (IsReader.vlcWalk (ctTable c)).bind fun x => (IsReader.decodeCoeffs maxN x).map fun cs => (x, cs)

theorem IsReader.cavlcDecode (maxN : Nat) (nc : Int) : IsReader (cavlcDecode maxN nc) := by
  have hraw : IsReader (cavlcDecodeRaw maxN nc) := by
    rw [funext (cavlcDecodeRaw_eq maxN nc)]
    exact (IsReader.decodeBlock maxN nc).counted fun n x => Decoded.mk n x.1.1 x.1.2 x.2
  exact hraw.mapError (f := asCodecError) rfl

/-! ### The macroblock layer (45 R360) -/

theorem decodeBlocks_cons (s : State) (m : Nat) (c : Comp) (b : Nat) (rest : List (Comp × Nat)) (r : MbRecord)
    (st : Stream) : decodeBlocks s m ((c, b) :: rest) r st =
      (cavlcDecode (16 - blockSkip r.intra c) (s.nc r m c b) st).bind fun p => decodeBlocks s m rest
        ((r.setCoef c b (unscan p.1.coeffs (blockSkip r.intra c))).setTc c b p.1.tc) p.2 := rfl

theorem decodeChromaDc_cons (c : Comp) (rest : List Comp) (r : MbRecord) (st : Stream) :
    decodeChromaDc (c :: rest) r st = (cavlcDecode 4 (-1) st).bind fun p =>
      decodeChromaDc rest (r.setDcc c (vec4 fun k => toWord (p.1.coeffs.getD k 0))) p.2 := rfl

theorem IsReader.decodeBlocks (s : State) (m : Nat) (l : List (Comp × Nat)) (r : MbRecord) :
    IsReader (decodeBlocks s m l r) := by
  induction l generalizing r with
  | nil => exact IsReader.const r
  | cons cb rest ih =>
    rw [funext (decodeBlocks_cons s m cb.1 cb.2 rest r)]
    exact (IsReader.cavlcDecode _ _).bind fun d =>
      ih ((r.setCoef cb.1 cb.2 (unscan d.coeffs (blockSkip r.intra cb.1))).setTc cb.1 cb.2 d.tc)

theorem IsReader.decodeLumaDc (s : State) (m : Nat) (r : MbRecord) : IsReader (decodeLumaDc s m r) :=
  IsReader.ite ((IsReader.cavlcDecode _ _).map fun d => { r with dcY := unscan d.coeffs 0 }) (IsReader.const r)

theorem IsReader.decodeChromaDc (l : List Comp) (r : MbRecord) : IsReader (decodeChromaDc l r) := by
  induction l generalizing r with
  | nil => exact IsReader.const r
  | cons c rest ih =>
    rw [funext (decodeChromaDc_cons c rest r)]
    exact (IsReader.cavlcDecode 4 (-1)).bind fun d => ih (r.setDcc c (vec4 fun k => toWord (d.coeffs.getD k 0)))

theorem IsReader.decodeMbResidual (s : State) (m cl cc : Nat) (r : MbRecord) :
    IsReader (decodeMbResidual s m cl cc r) :=
  (IsReader.decodeLumaDc s m r).bind fun r => (IsReader.decodeBlocks s m _ r).bind fun r =>
    (IsReader.decodeChromaDc _ r).bind fun r => IsReader.decodeBlocks s m _ r

theorem IsReader.decodeQp (pred : Int) : IsReader (decodeQp pred) :=
  IsReader.seDecode.bind fun d => (IsReader.const ((pred + d + 52) % 52)).require (within (-26) 25 d) .codecError

/-- The prediction fields and the pattern of an intra macroblock (45 R360). -/
def MbRecord.withIntra (r : MbRecord) (pm cbp : Int) (cpm : Nat) : MbRecord :=
  { r with intra := true, pm := toWord pm, cpm := toWord cpm, cbp := toWord cbp }

/-- The difference `d`, the motion vector `v` and the pattern of an inter macroblock (45 R360). -/
def MbRecord.withInter (r : MbRecord) (d v : Int × Int) (cbp : Nat) : MbRecord :=
  { r with mvdx := toWord d.1, mvdy := toWord d.2, mvx := toWord v.1, mvy := toWord v.2, cbp := toWord cbp }

/-- A sum of vectors, both components in range. -/
def chkPair (x y : Int) : Except Err (Int × Int) := (chk x).bind fun x => (chk y).bind fun y => .ok (x, y)

/-- The elements of an intra macroblock between mb_type and mb_qp_delta (45 R360). -/
def decodeIntraPrediction (pm cbp : Int) (r : MbRecord) (st : Stream) : Except Err (MbRecord × Stream) :=
  (ueDecode st).bind fun p => (require (decide (p.1 ≤ 3)) .tableMiss).bind fun _ => .ok (r.withIntra pm cbp p.1, p.2)

/-- The elements of an inter macroblock between mb_type and mb_qp_delta (45 R360), with the predictor `mv`. -/
def decodeInterPrediction (mv : Int × Int) (r : MbRecord) (st : Stream) : Except Err (MbRecord × Stream) :=
  (seDecode st).bind fun p => (seDecode p.2).bind fun q => (chkPair (mv.1 + p.1) (mv.2 + q.1)).bind fun v =>
    (cbpDecode false q.2).bind fun k => .ok (r.withInter (p.1, q.1) v k.1, k.2)

theorem decodePrediction_eq (s : State) (a : DecodeArgs) (intra : Bool) (pm cbp : Int) (r : MbRecord) (st : Stream) :
    decodePrediction s a intra pm cbp r st =
      if intra then decodeIntraPrediction pm cbp r st else decodeInterPrediction (s.mvp a.m a.slice) r st := by
  cases intra with
  | true => rfl
  | false =>
    change (seDecode st).bind _ = (seDecode st).bind _
    refine congrArg _ (funext fun p => ?_)
    change (seDecode p.2).bind _ = (seDecode p.2).bind _
    refine congrArg _ (funext fun q => ?_)
    change (chk _).bind (fun x => (chk _).bind _) = ((chk _).bind _).bind _
    cases chk ((s.mvp a.m a.slice).1 + p.1) with
    | error e => rfl
    | ok x => cases chk ((s.mvp a.m a.slice).2 + q.1) <;> rfl

theorem IsReader.decodeIntraPrediction (pm cbp : Int) (r : MbRecord) : IsReader (decodeIntraPrediction pm cbp r) :=
  IsReader.ueDecode.bind fun cpm => (IsReader.const (r.withIntra pm cbp cpm)).require (decide (cpm ≤ 3)) .tableMiss

theorem IsReader.decodeInterPrediction (mv : Int × Int) (r : MbRecord) : IsReader (decodeInterPrediction mv r) :=
  IsReader.seDecode.bind fun dx => IsReader.seDecode.bind fun dy =>
    IsReader.bind_const (chkPair (mv.1 + dx) (mv.2 + dy)) fun v =>
      (IsReader.cbpDecode false).map fun k => r.withInter (dx, dy) v k

theorem IsReader.decodePrediction (s : State) (a : DecodeArgs) (intra : Bool) (pm cbp : Int) (r : MbRecord) :
    IsReader (decodePrediction s a intra pm cbp r) := by
  rw [funext (decodePrediction_eq s a intra pm cbp r)]
  exact (IsReader.decodeIntraPrediction pm cbp r).ite (IsReader.decodeInterPrediction _ r)

/-- What follows the prediction elements: mb_qp_delta and the residual, or nothing (45 R360). -/
def decodeTail (s : State) (a : DecodeArgs) (r : MbRecord) (st : Stream) : Except Err (MbRecord × Stream) :=
  if r.intra || r.cbp ≠ 0 then (decodeQp (s.qpPred a.m a.slice a.sliceQp) st).bind fun p =>
    decodeMbResidual s a.m (r.cbp.toNat % 16) (r.cbp.toNat / 16) { r with qp := toWord p.1 } p.2
  else .ok ({ r with qp := toWord (s.qpPred a.m a.slice a.sliceQp) }, st)

/-- The record that MB_DECODE starts from, with its mb_type. -/
def typedRecord (a : DecodeArgs) (t : Nat) : MbRecord := { decodeRecord a with mbType := toWord t }

theorem decodeLayer_eq (s : State) (a : DecodeArgs) (st : Stream) : decodeLayer s a st =
    (ueDecode st).bind fun p => (unpackMbType a.st p.1).bind fun u =>
      (decodePrediction s a (decide (u.1 = 1)) u.2.1 u.2.2 (typedRecord a p.1) p.2).bind
        fun q => decodeTail s a q.1 q.2 := rfl

theorem IsReader.decodeTail (s : State) (a : DecodeArgs) (r : MbRecord) : IsReader (decodeTail s a r) := by
  refine IsReader.ite ?_ (IsReader.const _)
  exact (IsReader.decodeQp _).bind fun qp => IsReader.decodeMbResidual s a.m (r.cbp.toNat % 16) (r.cbp.toNat / 16)
    { r with qp := toWord qp }

theorem IsReader.decodeLayer (s : State) (a : DecodeArgs) : IsReader (decodeLayer s a) :=
  IsReader.ueDecode.bind fun t => IsReader.bind_const (unpackMbType a.st t) fun u =>
    (IsReader.decodePrediction s a (decide (u.1 = 1)) u.2.1 u.2.2 (typedRecord a t)).bind fun r =>
      IsReader.decodeTail s a r

end Sys2Proof.Machine
end

section
/-! PROOFS. Lists of writes (43 R240; 45 R352): the bits they write, up to the first raise. -/

namespace Sys2Proof.Machine

/-! ### Bits put at the position of a stream -/

/-- The bits `bs` written at the stream's position, which moves past them. -/
def Stream.put (st : Stream) (bs : List Bool) : Stream := { st.putBits st.pos bs with pos := st.pos + bs.length }

@[simp] theorem Stream.put_pos (st : Stream) (bs : List Bool) : (st.put bs).pos = st.pos + bs.length := rfl

@[simp] theorem Stream.put_len (st : Stream) (bs : List Bool) : (st.put bs).len = st.len := Stream.putBits_len ..

@[simp] theorem Stream.put_base (st : Stream) (bs : List Bool) : (st.put bs).base = st.base := Stream.putBits_base ..

/-- A write does not depend on the position it leaves. -/
theorem Stream.putBits_buf_congr {st st' : Stream} (hbuf : st.buf = st'.buf) (hbase : st.base = st'.base) (p : Nat)
    (bs : List Bool) : (st.putBits p bs).buf = (st'.putBits p bs).buf := by
  induction bs generalizing st st' p with
  | nil => exact hbuf
  | cons b bs ih =>
    have hset : (st.setBit p b).buf = (st'.setBit p b).buf := by simp only [Stream.setBit, hbuf, hbase]
    exact ih hset hbase (p + 1)

theorem Stream.putBits_append (st : Stream) (p : Nat) (xs ys : List Bool) :
    st.putBits p (xs ++ ys) = (st.putBits p xs).putBits (p + xs.length) ys := by
  induction xs generalizing st p with
  | nil => rfl
  | cons x xs ih =>
    rw [List.cons_append, Stream.putBits, ih, Stream.putBits, List.length_cons, Nat.add_assoc, Nat.add_comm 1]

theorem Stream.put_put (st : Stream) (xs ys : List Bool) : (st.put xs).put ys = st.put (xs ++ ys) := by
  have hbuf : ((st.put xs).put ys).buf = (st.put (xs ++ ys)).buf := by
    have hbits := Stream.putBits_buf_congr (st := st.put xs) (st' := st.putBits st.pos xs) rfl rfl
      (st.pos + xs.length) ys
    simpa only [Stream.put, Stream.putBits_append] using hbits
  have hpos : ((st.put xs).put ys).pos = (st.put (xs ++ ys)).pos := by simp [Nat.add_assoc]
  have hlen : ((st.put xs).put ys).len = (st.put (xs ++ ys)).len := by simp
  have hbase : ((st.put xs).put ys).base = (st.put (xs ++ ys)).base := by simp
  cases h : (st.put xs).put ys
  cases h' : st.put (xs ++ ys)
  simp_all

/-- A stream in which `bs` has been put holds it at the old position. -/
theorem Stream.put_holds {st : Stream} {bs : List Bool} (h : st.pos + bs.length ≤ st.len) :
    ({ st.put bs with pos := st.pos } : Stream).Holds bs :=
  ⟨by simpa using h, Stream.putBits_bits st st.pos bs⟩

theorem Stream.put_bit (st : Stream) (bs : List Bool) (q : Nat) :
    (st.put bs).bit q = if st.pos ≤ q ∧ q < st.pos + bs.length then bs.getD (q - st.pos) false else st.bit q :=
  Stream.putBits_bit st st.pos q bs

theorem Stream.writeCode_put (st : Stream) {c : Codeword} (hc : c.len ≤ 32) :
    st.writeCode c = if st.pos + c.len ≤ st.len then .ok (st.put (codewordBits c)) else .error .streamOverflow := by
  rw [Stream.writeCode_eq st c hc, Stream.put, codewordBits_length]

/-! ### The bits of a list of writes, and the raise they end with -/

/-- The bits that a list of writes writes, and the raise that ends it. -/
def itemsRun : List Item → List Bool × Option Err
  | [] => ([], none)
  | .ok c :: rest => (codewordBits c ++ (itemsRun rest).1, (itemsRun rest).2)
  | .error e :: _ => ([], some e)

/-- No raise: the bits are all there are. -/
theorem itemsBits_eq_some_iff {items : List Item} {bs : List Bool} :
    itemsBits items = some bs ↔ itemsRun items = (bs, none) := by
  induction items generalizing bs with
  | nil => simp [itemsBits, itemsRun, eq_comm]
  | cons x rest ih =>
    cases x with
    | error e => simp [itemsBits, itemsRun]
    | ok c => simp [itemsBits, itemsRun, ih, Prod.ext_iff, and_comm]

theorem itemsRun_append {xs : List Item} {bs : List Bool} (h : itemsBits xs = some bs) (ys : List Item) :
    itemsRun (xs ++ ys) = (bs ++ (itemsRun ys).1, (itemsRun ys).2) := by
  induction xs generalizing bs with
  | nil => cases h; rfl
  | cons x rest ih =>
    cases x with
    | error e => cases h
    | ok c =>
      obtain ⟨bs', hrest, rfl⟩ := Option.map_eq_some_iff.mp h
      simp only [List.cons_append, itemsRun, ih hrest, List.append_assoc]

theorem itemsBits_append_eq_some_iff {xs ys : List Item} {bs : List Bool} :
    itemsBits (xs ++ ys) = some bs ↔ ∃ bx by', itemsBits xs = some bx ∧ itemsBits ys = some by' ∧ bs = bx ++ by' := by
  induction xs generalizing bs with
  | nil => simp [itemsBits]
  | cons x rest ih =>
    cases x with
    | error e => simp [itemsBits]
    | ok c =>
      simp only [List.cons_append, itemsBits, Option.map_eq_some_iff, ih]
      constructor
      · rintro ⟨_, ⟨bx, by', hx, hy, rfl⟩, rfl⟩
        exact ⟨_, by', ⟨bx, hx, rfl⟩, hy, by simp⟩
      · rintro ⟨_, by', ⟨bx, hx, rfl⟩, hy, rfl⟩
        exact ⟨_, ⟨bx, by', hx, hy, rfl⟩, by simp⟩

theorem itemsBits_cons_eq_some_iff {x : Item} {rest : List Item} {bs : List Bool} :
    itemsBits (x :: rest) = some bs ↔
      ∃ c brest, x = .ok c ∧ itemsBits rest = some brest ∧ bs = codewordBits c ++ brest := by
  cases x <;> simp [itemsBits, eq_comm]

/-- A list of writes none of which is a raise has bits. -/
theorem exists_itemsBits {items : List Item} (h : ∀ x ∈ items, ∃ c, x = .ok c) : ∃ bs, itemsBits items = some bs := by
  induction items with
  | nil => exact ⟨[], rfl⟩
  | cons x rest ih =>
    obtain ⟨c, rfl⟩ := h x List.mem_cons_self
    obtain ⟨bs, hbs⟩ := ih fun y hy => h y (List.mem_cons_of_mem _ hy)
    exact ⟨codewordBits c ++ bs, by rw [itemsBits, hbs]; rfl⟩

/-- Every codeword of the list has 1 to 32 bits. -/
def Writable (items : List Item) : Prop := ∀ c, .ok c ∈ items → 0 < c.len ∧ c.len ≤ 32

theorem Writable.cons {x : Item} {rest : List Item} (hx : ∀ c, x = .ok c → 0 < c.len ∧ c.len ≤ 32)
    (h : Writable rest) : Writable (x :: rest) :=
  fun c hc => (List.mem_cons.mp hc).elim (fun heq => hx c heq.symm) (h c)

theorem Writable.append {xs ys : List Item} (hx : Writable xs) (hy : Writable ys) : Writable (xs ++ ys) :=
  fun c hc => (List.mem_append.mp hc).elim (hx c) (hy c)

theorem Writable.nil : Writable [] := fun _ h => by cases h

theorem Writable.of_cons {x : Item} {rest : List Item} (h : Writable (x :: rest)) : Writable rest :=
  fun c hc => h c (List.mem_cons_of_mem _ hc)

/-- What a list of writes does: StreamOverflow where its bits do not fit, else its raise, else the bits. -/
theorem Stream.writeItems_eq {items : List Item} (h : Writable items) (st : Stream) :
    st.writeItems items = if (itemsRun items).1 = [] ∨ st.pos + (itemsRun items).1.length ≤ st.len then
        (itemsRun items).2.elim (.ok (st.put (itemsRun items).1)) .error
      else .error .streamOverflow := by
  induction items generalizing st with
  | nil => rfl
  | cons x rest ih =>
    cases x with
    | error e => rfl
    | ok c =>
      obtain ⟨hpos, hlen⟩ := h c List.mem_cons_self
      have hbits := codewordBits_length c
      have hne : codewordBits c ≠ [] := List.ne_nil_of_length_pos (by omega)
      rw [Stream.writeItems_ok, Stream.writeCode_put st hlen]
      simp only [itemsRun, List.append_eq_nil_iff, hne, false_and, false_or, List.length_append, hbits]
      by_cases hroom : st.pos + c.len ≤ st.len
      · rw [if_pos hroom, except_ok_bind, ih h.of_cons, Stream.put_put, Stream.put_pos, Stream.put_len, hbits]
        refine if_congr ?_ rfl rfl
        rw [← List.length_eq_zero_iff]
        omega
      · rw [if_neg hroom, if_neg (by omega)]
        rfl

theorem Stream.writeItems_eq_ok_iff {items : List Item} (h : Writable items) {st st' : Stream} :
    st.writeItems items = .ok st' ↔
      ∃ bs, itemsBits items = some bs ∧ (bs = [] ∨ st.pos + bs.length ≤ st.len) ∧ st' = st.put bs := by
  rw [Stream.writeItems_eq h]
  simp only [itemsBits_eq_some_iff]
  rcases itemsRun items with ⟨bs, _ | e⟩
  · simp only [Option.elim]
    constructor
    · intro hok
      split at hok
      · next hroom => exact ⟨bs, rfl, hroom, (Except.ok.inj hok).symm⟩
      · cases hok
    · rintro ⟨_, heq, hroom, rfl⟩
      cases heq
      rw [if_pos hroom]
  · simp only [Option.elim, Prod.mk.injEq, reduceCtorEq, and_false, false_and, exists_false, iff_false]
    split <;> simp

end Sys2Proof.Machine
end

section
/-! PROOFS. Level codes (43 R233 to R235), and the widths of the codewords that the encode procedures write. -/

namespace Sys2Proof.Machine

/-! ### LevelCode and its inverse (43 R234, R235) -/

/-- The escape answers the least level_prefix whose suffix is wide enough. -/
theorem levelEscape_eq_ok {e p suffix size : Nat} (he : 4096 ≤ e) (h : levelEscape e = .ok (p, suffix, size)) :
    16 ≤ p ∧ p ≤ 31 ∧ size = p - 3 ∧ suffix < 2 ^ (p - 3) ∧ suffix + 2 ^ (p - 3) = e + 4096 := by
  have hrange : (List.range 32).drop 16 = List.range' 16 16 := by
    rw [List.range_eq_range', List.drop_range']
  unfold levelEscape at h
  rw [hrange] at h
  cases hq : (List.range' 16 16).find? (fun p => decide (e + 4096 < 2 ^ (p - 2))) with
  | none =>
    rw [hq] at h
    cases h
  | some q =>
    rw [hq] at h
    simp only [Except.ok.injEq, Prod.mk.injEq] at h
    obtain ⟨rfl, hsuffix, rfl⟩ := h
    obtain ⟨hfit, hmem, hleast⟩ := List.find?_range'_eq_some.mp hq
    obtain ⟨i, hi, hp⟩ := List.mem_range'.mp hmem
    obtain rfl : q = i + 16 := by omega
    have hfit : e + 4096 < 2 ^ (i + 14) := by
      rw [decide_eq_true_eq] at hfit
      rwa [show i + 16 - 2 = i + 14 by omega] at hfit
    have hlow : 2 ^ (i + 13) ≤ e + 4096 := by
      rcases Nat.eq_zero_or_pos i with rfl | hpos
      · norm_num
        omega
      · have hlast := hleast (i + 15) (by omega) (by omega)
        rw [Bool.not_eq_true', decide_eq_false_iff_not, not_lt] at hlast
        rwa [show i + 15 - 2 = i + 13 by omega] at hlast
    have hdouble : 2 ^ (i + 14) = 2 ^ (i + 13) * 2 := pow_succ 2 (i + 13)
    rw [show i + 16 - 3 = i + 13 by omega] at hsuffix ⊢
    omega

/-- The levelCode from which LevelCode writes level_prefix 15 or more (43 R234). -/
def escapeBase (sL : Nat) : Nat := 15 * 2 ^ sL + if sL = 0 then 15 else 0

theorem levelCode_of_escapeBase_le {lc sL : Nat} (h : escapeBase sL ≤ lc) :
    levelCode lc sL = if lc - escapeBase sL < 4096 then .ok (15, lc - escapeBase sL, 12)
      else levelEscape (lc - escapeBase sL) := by
  rw [escapeBase] at h
  have hsplit : lc - escapeBase sL = lc - 15 * 2 ^ sL - if sL = 0 then 15 else 0 := Nat.sub_add_eq ..
  have hfirst : ¬ (sL = 0 ∧ lc < 14) ∧ ¬ (sL = 0 ∧ lc < 30) ∧ ¬ (0 < sL ∧ lc < 15 * 2 ^ sL) := by
    rcases Nat.eq_zero_or_pos sL with rfl | hpos
    · simp only [if_pos, pow_zero] at h
      omega
    · omega
  obtain ⟨h1, h2, h3⟩ := hfirst
  rw [levelCode, if_neg h1, if_neg h2, if_neg h3, hsplit]

/-- LevelCode's branches (43 R234): a level_prefix alone or with a short suffix, or an escape. -/
theorem levelCode_cases (lc sL : Nat) :
    (sL = 0 ∧ lc < 14 ∧ levelCode lc sL = .ok (lc, 0, 0)) ∨
    (sL = 0 ∧ 14 ≤ lc ∧ lc < 30 ∧ levelCode lc sL = .ok (14, lc - 14, 4)) ∨
    (0 < sL ∧ lc < 15 * 2 ^ sL ∧ levelCode lc sL = .ok (lc / 2 ^ sL, lc % 2 ^ sL, sL)) ∨
    (escapeBase sL ≤ lc ∧ levelCode lc sL = if lc - escapeBase sL < 4096 then .ok (15, lc - escapeBase sL, 12)
      else levelEscape (lc - escapeBase sL)) := by
  rcases Nat.eq_zero_or_pos sL with rfl | hpos
  · by_cases h1 : lc < 14
    · exact .inl ⟨rfl, h1, if_pos ⟨rfl, h1⟩⟩
    by_cases h2 : lc < 30
    · exact .inr (.inl ⟨rfl, by omega, h2, by rw [levelCode, if_neg (by omega), if_pos ⟨rfl, h2⟩]⟩)
    · have hbase : escapeBase 0 ≤ lc := Nat.le_of_not_lt h2
      exact .inr (.inr (.inr ⟨hbase, levelCode_of_escapeBase_le hbase⟩))
  · by_cases h3 : lc < 15 * 2 ^ sL
    · exact .inr (.inr (.inl ⟨hpos, h3, by rw [levelCode, if_neg (by omega), if_neg (by omega), if_pos ⟨hpos, h3⟩]⟩))
    · have hbase : escapeBase sL ≤ lc := by
        rw [escapeBase, if_neg hpos.ne']
        omega
      exact .inr (.inr (.inr ⟨hbase, levelCode_of_escapeBase_le hbase⟩))

/-- The decoder's levelCode for a level_prefix of 15 (43 R235). -/
theorem levelCodeFrom_fifteen (suffix sL : Nat) : levelCodeFrom 15 suffix sL false = escapeBase sL + suffix := by
  rw [escapeBase]
  simp [levelCodeFrom]
  omega

/-- The decoder's levelCode for a level_prefix above 15 (43 R235). -/
theorem levelCodeFrom_of_sixteen_le {p : Nat} (hp : 16 ≤ p) (suffix sL : Nat) :
    levelCodeFrom p suffix sL false = escapeBase sL + suffix + (2 ^ (p - 3) - 4096) := by
  rw [escapeBase]
  simp only [levelCodeFrom, Nat.min_eq_left (show 15 ≤ p by omega), if_pos hp, show 15 ≤ p by omega, true_and]
  simp
  omega

theorem levelSuffixSize_of_fifteen_le {p : Nat} (hp : 15 ≤ p) (sL : Nat) : levelSuffixSize p sL = p - 3 := by
  rw [levelSuffixSize, if_neg (by omega), if_pos hp]

/-- Settles O32, by the branches of LevelCode; in the escape, the leastness of the level_prefix bounds the suffix. -/
theorem levelCodeInverse : Obligations.LevelCodeInverse := by
  intro lc sL p suffix size h
  have hreduced : levelCodeFrom p suffix sL true = levelCodeFrom p suffix sL false + 2 := by simp [levelCodeFrom]
  suffices hcode : p ≤ 31 ∧ size = levelSuffixSize p sL ∧ suffix < 2 ^ size ∧ levelCodeFrom p suffix sL false = lc by
    obtain ⟨hp, hsize, hsuffix, hlc⟩ := hcode
    exact ⟨hp, hsize, hsuffix, hlc, hreduced.trans (by rw [hlc])⟩
  rcases levelCode_cases lc sL with ⟨rfl, hlc, heq⟩ | ⟨rfl, hlow, hlc, heq⟩ | ⟨hpos, hlc, heq⟩ | ⟨hbase, heq⟩
  · cases heq.symm.trans h
    have h14 : ¬ lc = 14 := by omega
    have h15 : ¬ 15 ≤ lc := by omega
    have h16 : ¬ 16 ≤ lc := by omega
    simp [levelSuffixSize, levelCodeFrom, h14, h15, h16]
    omega
  · cases heq.symm.trans h
    simp [levelSuffixSize, levelCodeFrom]
    omega
  · cases heq.symm.trans h
    have hp : lc / 2 ^ sL < 15 := Nat.div_lt_of_lt_mul (by rwa [Nat.mul_comm])
    have h15 : ¬ 15 ≤ lc / 2 ^ sL := by omega
    have h16 : ¬ 16 ≤ lc / 2 ^ sL := by omega
    have hdiv := Nat.div_add_mod' lc (2 ^ sL)
    refine ⟨by omega, ?_, Nat.mod_lt _ (Nat.two_pow_pos sL), ?_⟩
    · rw [levelSuffixSize, if_neg (by omega), if_neg h15]
    · simpa [levelCodeFrom, Nat.min_eq_right hp.le, h15, h16] using hdiv
  · rw [heq] at h
    by_cases he : lc - escapeBase sL < 4096
    · rw [if_pos he] at h
      simp only [Except.ok.injEq, Prod.mk.injEq] at h
      obtain ⟨rfl, rfl, rfl⟩ := h
      have hsize : lc - escapeBase sL < 2 ^ 12 := by norm_num; exact he
      exact ⟨by decide, rfl, hsize, (levelCodeFrom_fifteen ..).trans (by omega)⟩
    · rw [if_neg he] at h
      obtain ⟨hp16, hp31, rfl, hsuffix, hsum⟩ := levelEscape_eq_ok (Nat.le_of_not_lt he) h
      have hpow : 2 ^ 13 ≤ 2 ^ (p - 3) := Nat.pow_le_pow_right (by decide) (by omega)
      refine ⟨hp31, (levelSuffixSize_of_fifteen_le (by omega) sL).symm, hsuffix, ?_⟩
      rw [levelCodeFrom_of_sixteen_le hp16]
      omega

/-- A level code's suffix has at most 28 bits. -/
theorem levelCode_size_le {lc sL p suffix size : Nat} (hsL : sL ≤ 28) (h : levelCode lc sL = .ok (p, suffix, size)) :
    size ≤ 28 := by
  obtain ⟨hp, rfl, -⟩ := levelCodeInverse lc sL p suffix size h
  rw [levelSuffixSize]
  split_ifs <;> omega

end Sys2Proof.Machine
end

section
/-! PROOFS. The writes of a CAVLC block are codewords of the codebooks (43 R237, R240). -/

namespace Sys2Proof.Machine

/-! ### The codebook steps -/

theorem codecStep_eq_ok_iff {α : Type} {x : Except Err α} {a : α} : codecStep x = .ok a ↔ x = .ok a := by
  cases x <;> simp [codecStep, Except.mapError]

theorem codecStep_eq_error_iff {α : Type} {x : Except Err α} {e : Err} :
    codecStep x = .error e ↔ ∃ e', x = .error e' ∧ e = asCodecError e' := by
  cases x <;> simp [codecStep, Except.mapError, eq_comm]

theorem mem_of_lookupCode {σ : Type} [DecidableEq σ] {t : VlcTable σ} {x : σ} {c : Codeword}
    (h : lookupCode t x = .ok c) : (x, c) ∈ t := by
  rw [lookupCode] at h
  split at h
  · next heq =>
    cases h
    exact mem_of_tableCode_eq_some heq
  · cases h

/-- A class is the class of what has it (42 R182). -/
theorem ncClass_eq_ok_iff {nc : Int} {c : CtClass} : ncClass nc = .ok c ↔ c.Has nc := by
  refine ⟨fun h => ?_, ncClass_of_has⟩
  rw [ncClass] at h
  split_ifs at h <;> cases h <;> simp only [CtClass.Has] <;> omega

theorem coeffToken_eq_ok {tc t1 : Nat} {nc : Int} {w : Codeword} (h : coeffToken tc t1 nc = .ok w) :
    ∃ c, ncClass nc = .ok c ∧ ((tc, t1), w) ∈ ctTable c := by
  obtain ⟨c, hc, -⟩ := except_bind_eq_ok_iff.mp h
  rw [coeffToken_of_has (ncClass_eq_ok_iff.mp hc)] at h
  split at h
  · exact ⟨c, hc, mem_of_lookupCode h⟩
  · cases h

theorem tzCode_eq (maxN : Nat) (tz tc : Nat) : tzCode maxN tz tc =
    if maxN = 4 then totalZerosCode 3 4 tz22 tz tc else totalZerosCode 15 16 tz4 tz tc := rfl

theorem totalZerosCode_eq_ok {n m : Nat} {tbl : Nat → VlcTable Nat} (htbl : IsTotalZeros n m tbl) {tz tc : Nat}
    {w : Codeword} (h : totalZerosCode n m tbl tz tc = .ok w) : IsCodebook (tbl tc) ∧ (tz, w) ∈ tbl tc := by
  rw [totalZerosCode_eq] at h
  split at h
  · next hrange => exact ⟨(htbl tc (by omega) (by omega)).1, mem_of_lookupCode h⟩
  · cases h

theorem tzCode_eq_ok {maxN tz tc : Nat} {w : Codeword} (h : tzCode maxN tz tc = .ok w) :
    IsCodebook (tzTable maxN tc) ∧ (tz, w) ∈ tzTable maxN tc := by
  rw [tzCode_eq] at h
  rw [tzTable]
  by_cases hN : maxN = 4
  · rw [if_pos hN] at h
    rw [if_pos hN]
    exact totalZerosCode_eq_ok tz22_isTotalZeros h
  · rw [if_neg hN] at h
    rw [if_neg hN]
    exact totalZerosCode_eq_ok tz4_isTotalZeros h

theorem rbCode_eq_ok {r zl : Nat} {w : Codeword} (h : rbCode r zl = .ok w) :
    1 ≤ zl ∧ r ≤ zl ∧ (r, w) ∈ rbTable zl := by
  rw [rbCode_eq] at h
  split at h
  · next hrange => exact ⟨by omega, by omega, mem_of_lookupCode h⟩
  · cases h

/-! ### The widths of the codewords -/

theorem nextSuffix_le {sL : Nat} (h : sL ≤ 6) (lv : Int) : nextSuffix sL lv ≤ 6 := by
  simp only [nextSuffix]
  split_ifs <;> omega

theorem initialSuffix_le (tc t1 : Nat) : initialSuffix tc t1 ≤ 6 := by
  rw [initialSuffix]
  split <;> decide

/-- The codewords of one level: its level_prefix, and its level_suffix if it has one (43 R240). -/
def levelBits (p suffix size : Nat) : List Item :=
  .ok (prefixCode p) :: if 0 < size then [.ok ⟨size, suffix⟩] else []

/-- The levelCode an encoder chooses (43 R233). -/
def chosenCode (reduced : Bool) (lv : Int) : Nat := (if reduced then levelCodeOf lv - 2 else levelCodeOf lv).toNat

theorem levelItems_cons (reduced : Bool) (sL : Nat) (lv : Int) (rest : List Int) :
    levelItems reduced sL (lv :: rest) = match levelCode (chosenCode reduced lv) sL with
      | .error e => [.error e]
      | .ok (p, suffix, size) => levelBits p suffix size ++ levelItems false (nextSuffix sL lv) rest := rfl

theorem levelItems_cons_of_ok {reduced : Bool} {sL p suffix size : Nat} {lv : Int}
    (h : levelCode (chosenCode reduced lv) sL = .ok (p, suffix, size)) (rest : List Int) :
    levelItems reduced sL (lv :: rest) = levelBits p suffix size ++ levelItems false (nextSuffix sL lv) rest := by
  rw [levelItems_cons, h]

theorem levelItems_cons_of_error {reduced : Bool} {sL : Nat} {lv : Int} {e : Err}
    (h : levelCode (chosenCode reduced lv) sL = .error e) (rest : List Int) :
    levelItems reduced sL (lv :: rest) = [.error e] := by
  rw [levelItems_cons, h]

theorem Writable.single {x : Item} (hx : ∀ c, x = .ok c → 0 < c.len ∧ c.len ≤ 32) : Writable [x] :=
  Writable.nil.cons hx

theorem Writable.error (e : Err) : Writable [.error e] := Writable.single fun _ h => by cases h

theorem levelBits_writable {lc sL p suffix size : Nat} (hsL : sL ≤ 6) (h : levelCode lc sL = .ok (p, suffix, size)) :
    Writable (levelBits p suffix size) := by
  obtain ⟨hp, -⟩ := levelCodeInverse lc sL p suffix size h
  have hsize := levelCode_size_le (by omega) h
  refine Writable.cons (fun c hc => ?_) ?_
  · cases hc
    exact ⟨p.succ_pos, Nat.succ_le_succ hp⟩
  · split
    · next hpos => exact Writable.single fun c hc => by cases hc; exact ⟨hpos, Nat.le_trans hsize (by decide)⟩
    · exact Writable.nil

theorem levelItems_writable {sL : Nat} (hsL : sL ≤ 6) (reduced : Bool) (lv : List Int) :
    Writable (levelItems reduced sL lv) := by
  induction lv generalizing reduced sL with
  | nil => exact Writable.nil
  | cons l rest ih =>
    cases h : levelCode (chosenCode reduced l) sL with
    | error e =>
      rw [levelItems_cons_of_error h]
      exact Writable.error e
    | ok x =>
      rw [levelItems_cons_of_ok h]
      exact (levelBits_writable hsL h).append (ih (nextSuffix_le hsL l) false)

theorem IsCodebook.writable {σ : Type} {t : VlcTable σ} (ht : IsCodebook t) {x : σ} {c : Codeword} (h : (x, c) ∈ t) :
    0 < c.len ∧ c.len ≤ 32 := by
  obtain ⟨hpos, hlen, -⟩ := ht.entry h
  exact ⟨hpos, hlen⟩

theorem rbCode_writable {r zl : Nat} {c : Codeword} (h : codecStep (rbCode r zl) = .ok c) : 0 < c.len ∧ c.len ≤ 32 := by
  obtain ⟨hzl, -, hmem⟩ := rbCode_eq_ok (codecStep_eq_ok_iff.mp h)
  exact (rbTable_isCodebook hzl).writable hmem

theorem tzCode_writable {maxN tz tc : Nat} {c : Codeword} (h : codecStep (tzCode maxN tz tc) = .ok c) :
    0 < c.len ∧ c.len ≤ 32 := by
  obtain ⟨htable, hmem⟩ := tzCode_eq_ok (codecStep_eq_ok_iff.mp h)
  exact htable.writable hmem

theorem coeffToken_writable {tc t1 : Nat} {nc : Int} {c : Codeword} (h : codecStep (coeffToken tc t1 nc) = .ok c) :
    0 < c.len ∧ c.len ≤ 32 := by
  obtain ⟨cls, -, hmem⟩ := coeffToken_eq_ok (codecStep_eq_ok_iff.mp h)
  exact (ctTable_isCodebook cls).writable hmem

theorem runItems_writable (zl : Nat) (rs : List Nat) : Writable (runItems zl rs) := by
  induction rs generalizing zl with
  | nil => exact Writable.nil
  | cons r rest ih =>
    rw [runItems]
    split
    · exact (ih _).cons fun c => rbCode_writable
    · exact ih _

theorem signs_writable (lv : List Int) : Writable (lv.map fun l => .ok (signCode l)) := by
  intro c hc
  obtain ⟨l, -, hl⟩ := List.mem_map.mp hc
  cases hl
  exact ⟨Nat.one_pos, show 1 ≤ 32 by decide⟩

theorem headItems_writable (nc : Int) (tc : Nat) (ones rest : List Int) : Writable (headItems nc tc ones rest) := by
  rw [headItems]
  exact ((signs_writable ones).cons fun _ => coeffToken_writable).append
    (levelItems_writable (initialSuffix_le ..) _ rest)

/-- The writes after the levels of a block (43 R240). -/
def tailItems (maxN tc tz : Nat) (rs : List Nat) : List Item :=
  (if tc < maxN then [codecStep (tzCode maxN tz tc)] else []) ++ runItems tz rs

theorem tailItems_writable (maxN tc tz : Nat) (rs : List Nat) : Writable (tailItems maxN tc tz rs) := by
  refine Writable.append ?_ (runItems_writable tz rs)
  split
  · exact Writable.single fun c => tzCode_writable
  · exact Writable.nil

/-! ### The writes of a block: its head and its tail -/

theorem trailingOnes_le (cs : List Int) : trailingOnes cs ≤ 3 := by
  rw [trailingOnes]
  exact Nat.le_trans (List.takeWhile_prefix _).length_le (by simp)

theorem trailingOnes_le_length (cs : List Int) : trailingOnes cs ≤ (levels cs).length := by
  rw [trailingOnes]
  exact Nat.le_trans (List.takeWhile_prefix _).length_le (by simp)

/-- The trailing ones of a block (43 R232). -/
def blockOnes (cs : List Int) : List Int := (levels cs).take (trailingOnes cs)

/-- The levels that are no trailing ones (43 R232). -/
def blockRest (cs : List Int) : List Int := (levels cs).drop (trailingOnes cs)

theorem blockOnes_length (cs : List Int) : (blockOnes cs).length = trailingOnes cs :=
  List.length_take_of_le (trailingOnes_le_length cs)

theorem cavlcItems_of_pos {cs : List Int} (h : 0 < totalCoeff cs) (maxN : Nat) (nc : Int) :
    cavlcItems cs maxN nc = headItems nc (totalCoeff cs) (blockOnes cs) (blockRest cs) ++
      tailItems maxN (totalCoeff cs) (totalZeros cs) (runs cs) := by
  rw [headItems, blockOnes_length]
  simp only [cavlcItems, tailItems, if_pos h, blockOnes, blockRest, List.cons_append, List.append_assoc]

theorem cavlcItems_of_zero {cs : List Int} (h : totalCoeff cs = 0) (maxN : Nat) (nc : Int) :
    cavlcItems cs maxN nc = [codecStep (coeffToken 0 (trailingOnes cs) nc)] := by
  simp [cavlcItems, h]

theorem cavlcItems_writable (cs : List Int) (maxN : Nat) (nc : Int) : Writable (cavlcItems cs maxN nc) := by
  rcases Nat.eq_zero_or_pos (totalCoeff cs) with h | h
  · rw [cavlcItems_of_zero h]
    exact Writable.single fun c => coeffToken_writable (tc := 0)
  · rw [cavlcItems_of_pos h]
    exact (headItems_writable nc _ _ _).append (tailItems_writable maxN _ _ _)

end Sys2Proof.Machine
end

section
/-! PROOFS. CavlcDecode reads back what CavlcEncode writes, element by element (43 R235, R241). -/

namespace Sys2Proof.Machine

/-! ### One level (43 R233, R235) -/

/-- The level of its own levelCode. -/
theorem levelOf_levelCodeOf {lv : Int} (h : lv ≠ 0) : levelOf (levelCodeOf lv).toNat = lv := by
  rw [levelOf, levelCodeOf]
  simp only [sar, pow_one, Nat.cast_ofNat]
  split_ifs <;> omega

/-- A level that its code stands for: not 0, and reduced only when it cannot be 1 or -1. -/
def LevelOk (reduced : Bool) (lv : Int) : Prop := lv ≠ 0 ∧ (reduced = true → 2 ≤ lv.natAbs)

/-- The decoder's levelCode for the code an encoder chooses is the level's (43 R233, R235). -/
theorem levelCodeFrom_chosenCode {reduced : Bool} {lv : Int} {sL p suffix size : Nat} (hlv : LevelOk reduced lv)
    (h : levelCode (chosenCode reduced lv) sL = .ok (p, suffix, size)) :
    levelCodeFrom p suffix sL reduced = (levelCodeOf lv).toNat := by
  obtain ⟨-, -, -, hplain, hreduced⟩ := levelCodeInverse _ _ _ _ _ h
  obtain ⟨hne, hbig⟩ := hlv
  cases reduced with
  | false => exact hplain
  | true =>
    have hcode : 2 ≤ levelCodeOf lv := by
      have := hbig rfl
      rw [levelCodeOf]
      split <;> omega
    rw [hreduced, chosenCode, if_pos rfl]
    omega

theorem codewordBits_prefixCode (p : Nat) : codewordBits (prefixCode p) = List.replicate p false ++ [true] := by
  have hval : bitsVal (List.replicate p false ++ [true]) = 1 := bitsVal_replicate_false_append p [true]
  have hcode : codewordOf (List.replicate p false ++ [true]) = prefixCode p := by
    rw [codewordOf, hval]
    simp [prefixCode]
  rw [← hcode, codewordBits_codewordOf]

theorem prefixDecode_of_holds {p : Nat} (hp : p ≤ 31) {st : Stream} (h : st.Holds (codewordBits (prefixCode p))) :
    prefixDecode st = .ok (p, st.skip (p + 1)) := by
  rw [codewordBits_prefixCode] at h
  exact countZeros_eq_ok_iff.mpr ⟨Nat.lt_succ_of_le hp, h, rfl⟩

theorem levelBits_itemsBits {p suffix size : Nat} :
    itemsBits (levelBits p suffix size) = some (codewordBits (prefixCode p) ++ bitsOf size suffix) := by
  rcases Nat.eq_zero_or_pos size with rfl | hpos
  · simp [levelBits, itemsBits, bitsOf]
  · simp [levelBits, itemsBits, hpos, codewordBits]

theorem decodeLevel_of_holds {reduced : Bool} {lv : Int} {sL p suffix size : Nat} {bs : List Bool} {st : Stream}
    (hlv : LevelOk reduced lv) (hsL : sL ≤ 6) (h : levelCode (chosenCode reduced lv) sL = .ok (p, suffix, size))
    (hbits : itemsBits (levelBits p suffix size) = some bs) (hst : st.Holds bs) :
    decodeLevel reduced sL st = .ok (lv, st.skip bs.length) := by
  obtain ⟨hp, hsize, hsuffix, -⟩ := levelCodeInverse _ _ _ _ _ h
  have hsize28 := levelCode_size_le (by omega) h
  obtain rfl := Option.some.inj (levelBits_itemsBits.symm.trans hbits)
  obtain ⟨hprefix, hrest⟩ := Stream.holds_append.mp hst
  rw [codewordBits_length] at hrest
  have hread : (st.skip (p + 1)).read (levelSuffixSize p sL) = .ok (suffix, (st.skip (p + 1)).skip size) := by
    rw [← hsize]
    exact (Stream.read_eq_ok_iff (by omega)).mpr ⟨hsuffix, hrest, rfl⟩
  change (prefixDecode st).bind _ = _
  rw [prefixDecode_of_holds hp hprefix, except_ok_bind]
  change ((st.skip (p + 1)).read _).bind _ = _
  rw [hread, except_ok_bind]
  change Except.ok (levelOf (levelCodeFrom p suffix sL reduced), _) = _
  rw [levelCodeFrom_chosenCode hlv h, levelOf_levelCodeOf hlv.1, Stream.skip_skip, List.length_append,
    codewordBits_length, bitsOf_length, Nat.add_comm]
  rfl

/-! ### The levels (43 R241) -/

theorem decodeLevels_succ (n : Nat) (reduced : Bool) (sL : Nat) (st : Stream) :
    decodeLevels (n + 1) reduced sL st = (decodeLevel reduced sL st).bind fun p =>
      (decodeLevels n false (nextSuffix sL p.1) p.2).bind fun q => .ok (p.1 :: q.1, q.2) := rfl

/-- Levels of which no code is a raise, and that their codes stand for. -/
def LevelsOk (reduced : Bool) : List Int → Prop
  | [] => True
  | lv :: rest => LevelOk reduced lv ∧ ∀ l ∈ rest, l ≠ 0

theorem LevelsOk.tail {reduced : Bool} {lv : Int} {rest : List Int} (h : LevelsOk reduced (lv :: rest)) :
    LevelsOk false rest := by
  obtain ⟨-, hrest⟩ := h
  cases rest with
  | nil => trivial
  | cons l rest =>
    obtain ⟨hl, hrest⟩ := List.forall_mem_cons.mp hrest
    exact ⟨⟨hl, fun h => by cases h⟩, hrest⟩

/-- After levels that the stream holds, the decode of further ones goes on at the next suffixLength. -/
theorem decodeLevels_of_holds {reduced : Bool} {sL : Nat} {lv : List Int} {bs : List Bool} {st : Stream}
    (hlv : LevelsOk reduced lv) (hsL : sL ≤ 6) (hbits : itemsBits (levelItems reduced sL lv) = some bs)
    (hst : st.Holds bs) (n : Nat) :
    decodeLevels (lv.length + n) reduced sL st =
      (decodeLevels n (reduced && lv.isEmpty) (lv.foldl nextSuffix sL) (st.skip bs.length)).bind fun q =>
        .ok (lv ++ q.1, q.2) := by
  induction lv generalizing reduced sL bs st with
  | nil =>
    obtain rfl := Option.some.inj hbits
    rw [List.length_nil, Nat.zero_add, List.length_nil, Stream.skip_zero, List.isEmpty_nil, Bool.and_true]
    change _ = (decodeLevels n reduced sL st).bind fun q => .ok (q.1, q.2)
    cases decodeLevels n reduced sL st <;> rfl
  | cons l rest ih =>
    cases hcode : levelCode (chosenCode reduced l) sL with
    | error e =>
      rw [levelItems_cons_of_error hcode] at hbits
      cases hbits
    | ok x =>
      obtain ⟨p, suffix, size⟩ := x
      rw [levelItems_cons_of_ok hcode] at hbits
      obtain ⟨b1, b2, hb1, hb2, rfl⟩ := itemsBits_append_eq_some_iff.mp hbits
      obtain ⟨hfirst, hrest⟩ := Stream.holds_append.mp hst
      rw [List.length_cons, Nat.add_right_comm, decodeLevels_succ,
        decodeLevel_of_holds hlv.1 hsL hcode hb1 hfirst, except_ok_bind, ih hlv.tail (nextSuffix_le hsL l) hb2 hrest,
        Stream.skip_skip, List.length_append, Nat.add_comm b2.length, List.isEmpty_cons, Bool.and_false,
        List.foldl_cons, Bool.false_and]
      cases decodeLevels n false (List.foldl nextSuffix (nextSuffix sL l) rest) (st.skip (b1.length + b2.length)) <;> rfl

theorem decodeSigns_succ (n : Nat) (st : Stream) : decodeSigns (n + 1) st =
    st.readBit.bind fun p => (decodeSigns n p.2).bind fun q => .ok ((if p.1 then -1 else 1) :: q.1, q.2) := rfl

theorem readBit_of_holds {st : Stream} {b : Bool} {bs : List Bool} (h : st.Holds (b :: bs)) :
    st.readBit = .ok (b, st.skip 1) := by
  obtain ⟨⟨hroom, hbit⟩, -⟩ := Stream.holds_cons.mp h
  rw [Stream.readBit_eq, if_pos hroom, hbit]
  rfl

theorem codewordBits_signCode (l : Int) : codewordBits (signCode l) = [decide (l < 0)] := by
  by_cases h : l < 0 <;> simp [signCode, h, codewordBits, bitsOf]

theorem signs_itemsBits (ones : List Int) :
    itemsBits (ones.map fun l => .ok (signCode l)) = some (ones.map fun l => decide (l < 0)) := by
  induction ones with
  | nil => rfl
  | cons l rest ih => rw [List.map_cons, itemsBits, ih, codewordBits_signCode]; rfl

theorem decodeSigns_of_holds {ones : List Int} {st : Stream} (hones : ∀ l ∈ ones, l = 1 ∨ l = -1)
    (hst : st.Holds (ones.map fun l => decide (l < 0))) : decodeSigns ones.length st = .ok (ones, st.skip ones.length) := by
  induction ones generalizing st with
  | nil => rfl
  | cons l rest ih =>
    obtain ⟨hl, hrest⟩ := List.forall_mem_cons.mp hones
    obtain ⟨-, hst'⟩ := Stream.holds_cons.mp hst
    have hsign : (if decide (l < 0) = true then (-1 : Int) else 1) = l := by rcases hl with rfl | rfl <;> rfl
    rw [List.length_cons, decodeSigns_succ, readBit_of_holds hst, except_ok_bind, ih hrest hst', except_ok_bind, hsign,
      Stream.skip_skip]

/-! ### The runs (43 R241) -/

/-- After runs that the stream holds, the decode of further ones goes on with the zeros then left. -/
theorem decodeRuns_of_holds {zl : Nat} {rs : List Nat} {bs : List Bool} {st : Stream} (hsum : rs.sum ≤ zl)
    (hbits : itemsBits (runItems zl rs) = some bs) (hst : st.Holds bs) (n : Nat) :
    decodeRuns (rs.length + n) zl st = (decodeRuns n (zl - rs.sum) (st.skip bs.length)).bind fun q =>
      .ok ((rs ++ q.1.1, q.1.2), q.2) := by
  induction rs generalizing zl bs st with
  | nil =>
    obtain rfl := Option.some.inj hbits
    rw [List.length_nil, Nat.zero_add, List.sum_nil, Nat.sub_zero, List.length_nil, Stream.skip_zero]
    cases decodeRuns n zl st <;> rfl
  | cons r rest ih =>
    rw [List.sum_cons] at hsum
    rw [List.length_cons, Nat.add_right_comm, decodeRuns_succ, List.sum_cons]
    rw [runItems] at hbits
    by_cases hzl : 0 < zl
    · rw [if_pos hzl] at hbits
      obtain ⟨c, brest, hc, hb, rfl⟩ := itemsBits_cons_eq_some_iff.mp hbits
      obtain ⟨-, hr, hmem⟩ := rbCode_eq_ok (codecStep_eq_ok_iff.mp hc)
      obtain ⟨hfirst, hrest⟩ := Stream.holds_append.mp hst
      rw [codewordBits_length] at hrest
      rw [if_pos hzl, (rbTable_isCodebook hzl).vlcWalk_of_holds hmem hfirst, except_ok_bind, require_bind,
        if_pos (decide_eq_true hr), ih (by omega) hb hrest, Stream.skip_skip, List.length_append, codewordBits_length,
        Nat.add_comm brest.length, Nat.sub_sub]
      cases decodeRuns n (zl - (r + rest.sum)) (st.skip (c.len + brest.length)) <;> rfl
    · obtain rfl : r = 0 := by omega
      rw [if_neg hzl] at hbits
      rw [if_neg hzl, ih (by omega) hbits hst, Nat.zero_add]
      cases decodeRuns n (zl - rest.sum) (st.skip bs.length) <;> rfl

end Sys2Proof.Machine
end

section
/-! PROOFS. The coefficient list as levels, each after a run of zeros (43 R232, R241), and the decode of a whole
block. -/

namespace Sys2Proof.Machine

/-! ### The non-zero coefficients with the zeros before them -/

/-- The non-zero coefficients of a list in scan order, each with the number of zeros before it, after `z` zeros. -/
def blockPairs : Nat → List Int → List (Int × Nat)
  | _, [] => []
  | z, c :: cs => if c = 0 then blockPairs (z + 1) cs else (c, z) :: blockPairs 0 cs

/-- The scan positions of coefficients given with the zeros before them, from position `k` on. -/
def pairPositions : Nat → List (Int × Nat) → List Nat
  | _, [] => []
  | k, (_, z) :: ps => (k + z) :: pairPositions (k + z + 1) ps

theorem nonzeroPositions_cons (c : Int) (cs : List Int) :
    nonzeroPositions (c :: cs) = (if c ≠ 0 then [0] else []) ++ (nonzeroPositions cs).map (· + 1) := by
  have htail : ((List.range cs.length).map (· + 1)).filter (fun k => decide ((c :: cs).getD k 0 ≠ 0)) =
      (nonzeroPositions cs).map (· + 1) := by
    rw [nonzeroPositions, List.filter_map]
    rfl
  rw [nonzeroPositions, List.length_cons, List.range_succ_eq_map, List.filter_cons]
  change (if decide (c ≠ 0) = true then _ else _) = _
  by_cases hc : c = 0
  · rw [if_neg (by simp [hc]), if_neg (not_not_intro hc)]
    exact htail
  · rw [if_pos (by simp [hc]), if_pos hc]
    exact congrArg (0 :: ·) htail

theorem nonzeroPositions_eq_pairPositions (k z : Nat) (cs : List Int) :
    (nonzeroPositions cs).map (· + (k + z)) = pairPositions k (blockPairs z cs) := by
  induction cs generalizing k z with
  | nil => rfl
  | cons c cs ih =>
    rw [nonzeroPositions_cons, List.map_append, List.map_map]
    by_cases hc : c = 0
    · have := ih k (z + 1)
      simpa [blockPairs, hc, Function.comp_def, Nat.add_assoc, Nat.add_comm 1] using this
    · have := ih (k + z + 1) 0
      simpa [blockPairs, pairPositions, hc, Function.comp_def, Nat.add_assoc, Nat.add_comm 1] using this

theorem nonzeroPositions_eq (cs : List Int) : nonzeroPositions cs = pairPositions 0 (blockPairs 0 cs) := by
  have := nonzeroPositions_eq_pairPositions 0 0 cs
  simpa using this

theorem pairPositions_length (k : Nat) (ps : List (Int × Nat)) : (pairPositions k ps).length = ps.length := by
  induction ps generalizing k with
  | nil => rfl
  | cons p ps ih => simp [pairPositions, ih]

theorem totalCoeff_eq (cs : List Int) : totalCoeff cs = (blockPairs 0 cs).length := by
  rw [totalCoeff, nonzeroPositions_eq, pairPositions_length]

theorem map_fst_blockPairs (z : Nat) (cs : List Int) :
    (blockPairs z cs).map Prod.fst = cs.filter fun c => decide (c ≠ 0) := by
  induction cs generalizing z with
  | nil => rfl
  | cons c cs ih =>
    rw [blockPairs]
    by_cases hc : c = 0 <;> simp [hc, ih]

theorem levels_eq (cs : List Int) : levels cs = ((blockPairs 0 cs).map Prod.fst).reverse := by
  rw [levels, map_fst_blockPairs]

theorem levels_length (cs : List Int) : (levels cs).length = totalCoeff cs := by
  rw [levels_eq, totalCoeff_eq, List.length_reverse, List.length_map]

theorem totalCoeff_eq_filter (cs : List Int) : totalCoeff cs = (cs.filter fun c => decide (c ≠ 0)).length := by
  rw [← levels_length, levels, List.length_reverse]

theorem gaps_concat (xs : List Nat) (a b : Nat) : gaps (xs ++ [b, a]) = gaps (xs ++ [b]) ++ [b - a - 1] := by
  induction xs with
  | nil => rfl
  | cons x xs ih =>
    cases xs with
    | nil => rfl
    | cons y ys => simpa [gaps] using ih

/-- The gaps between the positions are the zeros before every coefficient but the first. -/
theorem gaps_pairPositions (k : Nat) (p : Int × Nat) (ps : List (Int × Nat)) :
    gaps (pairPositions k (p :: ps)).reverse = (ps.map Prod.snd).reverse := by
  induction ps generalizing k p with
  | nil => rfl
  | cons q qs ih =>
    have hgap : k + p.2 + 1 + q.2 - (k + p.2) - 1 = q.2 := by omega
    have hrest := ih (k + p.2 + 1) q
    simp only [pairPositions, List.reverse_cons, List.append_assoc, List.cons_append, List.nil_append] at hrest ⊢
    rw [gaps_concat, hrest, hgap, List.map_cons, List.reverse_cons]

theorem runs_eq (cs : List Int) : runs cs = ((blockPairs 0 cs).tail.map Prod.snd).reverse := by
  rw [runs, nonzeroPositions_eq]
  cases blockPairs 0 cs with
  | nil => rfl
  | cons p ps => exact gaps_pairPositions 0 p ps

/-- The last position is what the zeros and the coefficients before it add up to. -/
theorem getLast_pairPositions (k : Nat) (p : Int × Nat) (ps : List (Int × Nat)) :
    (pairPositions k (p :: ps)).getLast? = some (k + ((p :: ps).map Prod.snd).sum + ps.length) := by
  induction ps generalizing k p with
  | nil => simp [pairPositions]
  | cons q qs ih =>
    have hrest := ih (k + p.2 + 1) q
    rw [pairPositions, List.getLast?_cons_of_ne_nil (by simp [pairPositions]), hrest]
    simp only [List.map_cons, List.sum_cons, List.length_cons, Option.some.injEq]
    omega

theorem totalZeros_eq (cs : List Int) : totalZeros cs = ((blockPairs 0 cs).map Prod.snd).sum := by
  rw [totalZeros, totalCoeff_eq, nonzeroPositions_eq]
  cases h : blockPairs 0 cs with
  | nil => rfl
  | cons p ps =>
    have hlast := getLast_pairPositions 0 p ps
    rw [← List.head?_reverse] at hlast
    split
    · next hnil => rw [hnil] at hlast; cases hlast
    · next last rest heq =>
      rw [heq] at hlast
      cases hlast
      simp only [List.length_cons]
      omega

/-- The coefficients of the pairs, in scan order. -/
def placePairs (ps : List (Int × Nat)) : List Int := ps.flatMap fun p => List.replicate p.2 0 ++ [p.1]

theorem placePairs_cons (p : Int × Nat) (ps : List (Int × Nat)) :
    placePairs (p :: ps) = List.replicate p.2 0 ++ p.1 :: placePairs ps := by simp [placePairs]

theorem placePairs_length (ps : List (Int × Nat)) : (placePairs ps).length = ps.length + (ps.map Prod.snd).sum := by
  induction ps with
  | nil => rfl
  | cons p ps ih =>
    simp only [placePairs_cons, List.length_append, List.length_replicate, List.length_cons, ih, List.map_cons,
      List.sum_cons]
    omega

/-- The pairs of a list, placed and padded with zeros, are the list. -/
theorem placePairs_blockPairs (z : Nat) (cs : List Int) : placePairs (blockPairs z cs) ++
    List.replicate (z + cs.length - (placePairs (blockPairs z cs)).length) 0 = List.replicate z 0 ++ cs := by
  induction cs generalizing z with
  | nil => simp [blockPairs, placePairs]
  | cons c cs ih =>
    rw [blockPairs]
    by_cases hc : c = 0
    · subst hc
      rw [if_pos rfl, List.length_cons, show z + (cs.length + 1) = z + 1 + cs.length by omega, ih (z + 1),
        List.replicate_succ', List.append_assoc]
      rfl
    · have hrest := ih 0
      rw [Nat.zero_add, List.replicate_zero, List.nil_append] at hrest
      rw [if_neg hc, placePairs_cons]
      simp only [List.length_append, List.length_replicate, List.length_cons, List.append_assoc, List.cons_append,
        Nat.add_sub_add_left, Nat.add_sub_add_right, hrest]

theorem zip_map_fst_snd {α β : Type} (ps : List (α × β)) : (ps.map Prod.fst).zip (ps.map Prod.snd) = ps := by
  induction ps with
  | nil => rfl
  | cons p ps ih => simp [ih]

/-- The levels and all the runs of a list, placed, are the list (43 R241). -/
theorem placeLevels_levels (cs : List Int) :
    placeLevels cs.length (levels cs) ((blockPairs 0 cs).map Prod.snd).reverse = cs := by
  have hpairs := placePairs_blockPairs 0 cs
  rw [Nat.zero_add, List.replicate_zero, List.nil_append] at hpairs
  rw [placeLevels, levels_eq, ← List.map_reverse, ← List.map_reverse, zip_map_fst_snd, List.reverse_reverse]
  exact hpairs

/-- The zeros of a list and its other coefficients are at most its length. -/
theorem totalCoeff_add_totalZeros_le (cs : List Int) : totalCoeff cs + totalZeros cs ≤ cs.length := by
  have hlen := congrArg List.length (placePairs_blockPairs 0 cs)
  rw [List.length_append, placePairs_length, ← totalCoeff_eq, ← totalZeros_eq] at hlen
  simp only [List.replicate_zero, List.nil_append] at hlen
  omega

/-! ### The trailing ones and the other levels -/

theorem levels_ne_zero {cs : List Int} {l : Int} (h : l ∈ levels cs) : l ≠ 0 := by
  rw [levels, List.mem_reverse, List.mem_filter] at h
  exact of_decide_eq_true h.2

theorem blockOnes_append_blockRest (cs : List Int) : blockOnes cs ++ blockRest cs = levels cs := List.take_append_drop ..

/-- The trailing ones of a list are 1 or -1 (43 R232). -/
theorem blockOnes_eq_takeWhile (cs : List Int) :
    blockOnes cs = ((levels cs).take 3).takeWhile fun l => decide (absInt l = 1) := by
  have hprefix := (List.takeWhile_prefix (fun l => decide (absInt l = 1)) (l := (levels cs).take 3)).trans
    (List.take_prefix 3 (levels cs))
  exact (List.prefix_iff_eq_take.mp hprefix).symm

/-- The element after the longest initial part that meets a condition does not meet it. -/
theorem getElem?_length_takeWhile {α : Type} {p : α → Bool} {xs : List α} {x : α}
    (h : xs[(xs.takeWhile p).length]? = some x) : p x = false := by
  induction xs with
  | nil => cases h
  | cons y ys ih =>
    rw [List.takeWhile_cons] at h
    cases hy : p y with
    | false =>
      rw [hy] at h
      cases h
      exact hy
    | true =>
      rw [hy] at h
      exact ih h

theorem headOk_block (cs : List Int) : HeadOk (blockOnes cs) (blockRest cs) := by
  refine ⟨fun l hl => ?_, fun l hl => levels_ne_zero (List.mem_of_mem_drop hl), fun hlt l hl => ?_⟩
  · rw [blockOnes_eq_takeWhile] at hl
    have hone : absInt l = 1 := of_decide_eq_true (List.mem_takeWhile_imp (p := fun l => decide (absInt l = 1)) hl)
    simp only [absInt] at hone
    omega
  · rw [blockOnes_length] at hlt
    have hl0 : l ≠ 0 := levels_ne_zero (List.mem_of_mem_drop (List.mem_of_mem_head? hl))
    have hl1 : absInt l ≠ 1 := by
      rw [blockRest, List.head?_drop] at hl
      have hget : ((levels cs).take 3)[trailingOnes cs]? = some l := by
        rw [List.getElem?_take_of_lt hlt]
        exact hl
      exact of_decide_eq_false (getElem?_length_takeWhile (p := fun l => decide (absInt l = 1)) hget)
    simp only [absInt] at hl1
    omega

end Sys2Proof.Machine
end

section
/-! PROOFS. CavlcDecode of the writes of CavlcEncode, and the commands CAVLC_DEC4 and CAVLC_DEC2 (43 R241, R251,
R253). -/

namespace Sys2Proof.Machine

/-! ### A block, part by part (43 R241) -/

/-- What follows the levels `lv` of a block: total_zeros and the runs (43 R241). -/
def decodeZeros (maxN tc : Nat) (lv : List Int) (st : Stream) : Except Err (List Int × Stream) :=
  (decodeTotalZeros maxN tc st).bind fun p => (decodeRuns (tc - 1) p.1 p.2).bind fun q =>
    .ok (placeLevels maxN lv (q.1.1 ++ [q.1.2]), q.2)

/-- What follows the levels read so far of a block: `n` further levels, then total_zeros and the runs (43 R241). -/
def decodeFurther (maxN tc n : Nat) (reduced : Bool) (sL : Nat) (lv : List Int) (st : Stream) :
    Except Err (List Int × Stream) :=
  (decodeLevels n reduced sL st).bind fun p => decodeZeros maxN tc (lv ++ p.1) p.2

theorem decodeResidual_eq (maxN tc t1 : Nat) (st : Stream) : decodeResidual maxN tc t1 st =
    (decodeSigns t1 st).bind fun p =>
      decodeFurther maxN tc (tc - t1) (decide (t1 < 3)) (initialSuffix tc t1) p.1 p.2 := rfl

theorem HeadOk.levelsOk {ones rest : List Int} (h : HeadOk ones rest) : LevelsOk (decide (ones.length < 3)) rest := by
  obtain ⟨-, hne, hbig⟩ := h
  cases rest with
  | nil => trivial
  | cons l rest =>
    obtain ⟨hl, hrest⟩ := List.forall_mem_cons.mp hne
    exact ⟨⟨hl, fun hlt => hbig (of_decide_eq_true hlt) l rfl⟩, hrest⟩

/-- suffixLength after the levels of a block (43 R233). -/
def suffixAfter (tc : Nat) (ones rest : List Int) : Nat := rest.foldl nextSuffix (initialSuffix tc ones.length)

/-- After a coeff_token, trailing ones and levels that the stream holds, the decode of the block goes on with what
follows them. -/
theorem decodeBlock_of_head {maxN tc n : Nat} {nc : Int} {ones rest : List Int} {bs : List Bool} {st : Stream}
    (hok : HeadOk ones rest) (hbits : itemsBits (headItems nc tc ones rest) = some bs) (hst : st.Holds bs)
    (htc : ones.length + (rest.length + n) = tc) (hpos : 0 < tc) (hmax : tc ≤ maxN) :
    decodeBlock maxN nc st = (decodeFurther maxN tc n (decide (ones.length < 3) && rest.isEmpty)
      (suffixAfter tc ones rest) (ones ++ rest) (st.skip bs.length)).bind fun q =>
        .ok (((tc, ones.length), q.1), q.2) := by
  rw [headItems] at hbits
  obtain ⟨b1, blevels, hb1, hlevels, rfl⟩ := itemsBits_append_eq_some_iff.mp hbits
  obtain ⟨w, bsigns, hw, hsigns, rfl⟩ := itemsBits_cons_eq_some_iff.mp hb1
  obtain rfl := Option.some.inj ((signs_itemsBits ones).symm.trans hsigns)
  obtain ⟨c, hc, hmem⟩ := coeffToken_eq_ok (codecStep_eq_ok_iff.mp hw)
  obtain ⟨hhead, hstLevels⟩ := Stream.holds_append.mp hst
  obtain ⟨htoken, hstSigns⟩ := Stream.holds_append.mp hhead
  rw [codewordBits_length] at hstSigns
  have hwalk := (ctTable_isCodebook c).vlcWalk_of_holds hmem htoken
  have hlen : (codewordBits w ++ ones.map fun l => decide (l < 0)).length = ones.length + w.len := by
    rw [List.length_append, codewordBits_length, List.length_map, Nat.add_comm]
  have hfurther : decodeResidual maxN tc ones.length (st.skip w.len) =
      decodeFurther maxN tc n (decide (ones.length < 3) && rest.isEmpty) (suffixAfter tc ones rest) (ones ++ rest)
        (st.skip (codewordBits w ++ ones.map (fun l => decide (l < 0)) ++ blevels).length) := by
    rw [decodeResidual_eq, decodeSigns_of_holds hok.1 hstSigns, except_ok_bind, Stream.skip_skip, ← hlen,
      List.length_append (bs := blevels), Nat.add_comm _ blevels.length, ← Stream.skip_skip]
    simp only [decodeFurther]
    rw [show tc - ones.length = rest.length + n by omega, decodeLevels_of_holds hok.levelsOk (initialSuffix_le ..)
      hlevels hstLevels n, suffixAfter]
    cases decodeLevels n (decide (ones.length < 3) && rest.isEmpty)
      (List.foldl nextSuffix (initialSuffix tc ones.length) rest)
      ((st.skip (codewordBits w ++ ones.map fun l => decide (l < 0)).length).skip blevels.length) with
    | error e => rfl
    | ok p => simp only [except_ok_bind, List.append_assoc]
  simp only [decodeBlock, decodeCoeffs, hc, except_ok_bind, hwalk, require_bind, decide_eq_true hmax, if_pos,
    if_neg hpos.ne', hfurther]

/-- total_zeros, where the stream holds its codeword or none is due (43 R241). -/
theorem decodeTotalZeros_of_holds {maxN tc tz : Nat} {bs : List Bool} {st : Stream} (hsum : tc + tz ≤ maxN)
    (hbits : itemsBits (if tc < maxN then [codecStep (tzCode maxN tz tc)] else []) = some bs) (hst : st.Holds bs) :
    decodeTotalZeros maxN tc st = .ok (tz, st.skip bs.length) := by
  rw [decodeTotalZeros]
  by_cases htc : tc < maxN
  · rw [if_pos htc] at hbits
    obtain ⟨w, brest, hw, hrest, rfl⟩ := itemsBits_cons_eq_some_iff.mp hbits
    cases hrest
    obtain ⟨htable, hmem⟩ := tzCode_eq_ok (codecStep_eq_ok_iff.mp hw)
    rw [List.append_nil] at hst
    rw [if_pos htc, List.append_nil, codewordBits_length]
    change (vlcWalk _ st).bind _ = _
    rw [htable.vlcWalk_of_holds hmem hst, except_ok_bind]
    change (require _ _).bind _ = _
    rw [require_bind, if_pos (decide_eq_true (by omega : tz ≤ maxN - tc))]
    rfl
  · rw [if_neg htc] at hbits
    cases hbits
    obtain rfl : tz = 0 := by omega
    rw [if_neg htc]
    rfl

/-- The levels of a block split into the trailing ones and the others. -/
theorem block_lengths (cs : List Int) : (blockOnes cs).length + (blockRest cs).length = totalCoeff cs := by
  rw [← List.length_append, blockOnes_append_blockRest, levels_length]

/-- The zeros before the first coefficient are those that the other runs leave (43 R232). -/
theorem totalZeros_sub_runs (cs : List Int) (h : 0 < totalCoeff cs) : (runs cs).sum ≤ totalZeros cs ∧
    runs cs ++ [totalZeros cs - (runs cs).sum] = ((blockPairs 0 cs).map Prod.snd).reverse ∧
    (runs cs).length = totalCoeff cs - 1 := by
  rw [totalCoeff_eq] at h ⊢
  rw [runs_eq, totalZeros_eq]
  cases hp : blockPairs 0 cs with
  | nil =>
    rw [hp] at h
    cases h
  | cons p ps => simp

/-- The zeros and runs of a list that the stream holds, decoded after its levels, give the list. -/
theorem decodeZeros_of_holds {cs : List Int} {bs : List Bool} {st : Stream} (hpos : 0 < totalCoeff cs)
    (hbits : itemsBits (tailItems cs.length (totalCoeff cs) (totalZeros cs) (runs cs)) = some bs) (hst : st.Holds bs) :
    decodeZeros cs.length (totalCoeff cs) (levels cs) st = .ok (cs, st.skip bs.length) := by
  rw [tailItems] at hbits
  obtain ⟨bz, br, hz, hr, rfl⟩ := itemsBits_append_eq_some_iff.mp hbits
  obtain ⟨hstZeros, hstRuns⟩ := Stream.holds_append.mp hst
  obtain ⟨hsum, hall, hlen⟩ := totalZeros_sub_runs cs hpos
  have hruns := decodeRuns_of_holds hsum hr hstRuns 0
  rw [Nat.add_zero, hlen] at hruns
  rw [decodeZeros, decodeTotalZeros_of_holds (totalCoeff_add_totalZeros_le cs) hz hstZeros, except_ok_bind, hruns]
  change Except.ok (placeLevels cs.length (levels cs) (runs cs ++ [] ++ [totalZeros cs - (runs cs).sum]), _) = _
  rw [List.append_nil, hall, placeLevels_levels, Stream.skip_skip, List.length_append, Nat.add_comm]

/-- A list with no coefficient is all zeros. -/
theorem eq_replicate_of_totalCoeff_eq_zero {cs : List Int} (h : totalCoeff cs = 0) : cs = List.replicate cs.length 0 := by
  rw [totalCoeff_eq_filter, List.length_eq_zero_iff, List.filter_eq_nil_iff] at h
  exact List.eq_replicate_of_mem fun c hc => by simpa using h c hc

/-- The decode of a block that the stream holds. -/
theorem decodeBlock_of_holds {cs : List Int} {nc : Int} {bs : List Bool} {st : Stream}
    (hbits : itemsBits (cavlcItems cs cs.length nc) = some bs) (hst : st.Holds bs) :
    decodeBlock cs.length nc st = .ok (((totalCoeff cs, trailingOnes cs), cs), st.skip bs.length) := by
  rcases Nat.eq_zero_or_pos (totalCoeff cs) with hzero | hpos
  · rw [cavlcItems_of_zero hzero] at hbits
    obtain ⟨w, brest, hw, hrest, rfl⟩ := itemsBits_cons_eq_some_iff.mp hbits
    cases hrest
    rw [List.append_nil] at hst ⊢
    obtain ⟨c, hc, hmem⟩ := coeffToken_eq_ok (tc := 0) (codecStep_eq_ok_iff.mp hw)
    simp only [decodeBlock, decodeCoeffs, hc, except_ok_bind, (ctTable_isCodebook c).vlcWalk_of_holds hmem hst,
      require_bind, Nat.zero_le, decide_true, if_pos, codewordBits_length, hzero,
      ← eq_replicate_of_totalCoeff_eq_zero hzero]
  · rw [cavlcItems_of_pos hpos] at hbits
    obtain ⟨bhead, btail, hhead, htail, rfl⟩ := itemsBits_append_eq_some_iff.mp hbits
    obtain ⟨hstHead, hstTail⟩ := Stream.holds_append.mp hst
    have hmax := Nat.le_trans (Nat.le_add_right ..) (totalCoeff_add_totalZeros_le cs)
    rw [decodeBlock_of_head (n := 0) (headOk_block cs) hhead hstHead (block_lengths cs) hpos hmax]
    change ((decodeZeros _ _ (_ ++ []) _).bind _) = _
    rw [List.append_nil, blockOnes_append_blockRest, decodeZeros_of_holds hpos htail hstTail, except_ok_bind,
      blockOnes_length, Stream.skip_skip, List.length_append, Nat.add_comm btail.length]

theorem cavlcDecode_of_ok {maxN tc t1 n : Nat} {nc : Int} {cs : List Int} {st : Stream}
    (h : decodeBlock maxN nc st = .ok (((tc, t1), cs), st.skip n)) :
    cavlcDecode maxN nc st = .ok (⟨n, tc, t1, cs⟩, st.skip n) := by
  rw [cavlcDecode, cavlcDecodeRaw_eq, h, except_ok_bind]
  simp only [Stream.skip, Nat.add_sub_cancel_left]
  rfl

theorem cavlcDecode_of_error {maxN : Nat} {nc : Int} {st : Stream} {e : Err} (h : decodeBlock maxN nc st = .error e) :
    cavlcDecode maxN nc st = .error (asCodecError e) := by
  rw [cavlcDecode, cavlcDecodeRaw_eq, h]
  rfl

/-- CavlcDecode of the code of a list gives the list, its counts and the number of its bits (43 R241). -/
theorem cavlcDecode_of_holds {cs : List Int} {nc : Int} {bs : List Bool} {st : Stream}
    (hbits : itemsBits (cavlcItems cs cs.length nc) = some bs) (hst : st.Holds bs) :
    cavlcDecode cs.length nc st = .ok (⟨bs.length, totalCoeff cs, trailingOnes cs, cs⟩, st.skip bs.length) :=
  cavlcDecode_of_ok (decodeBlock_of_holds hbits hst)

end Sys2Proof.Machine
end

section
/-! PROOFS. The CAVLC commands (43 R250 to R253): what they write, and what they read back. -/

namespace Sys2Proof.Machine

/-! ### The commands by their operands -/

/-- The command that decodes a block of 4x4 (`four`) or of 2x2 coefficients. -/
def decInstr (four : Bool) : Instr := if four then .cavlcDec4 else .cavlcDec2

/-- The command that encodes a block of 4x4 (`four`) or of 2x2 coefficients. -/
def encInstr (four : Bool) : Instr := if four then .cavlcEnc4 else .cavlcEnc2

/-- The operand check of the CAVLC commands. -/
def blockCheck (four : Bool) (s : State) : Except Err Unit := if four then check4 s else check2 s

theorem blockCheck_of_operands {s : State} {four : Bool} {maxN : Nat} {nc : Int} (h : s.BlockOperands four maxN nc) :
    blockCheck four s = .ok () := by
  cases four with
  | true =>
    obtain ⟨hnc, -, ds, hds, harg, -⟩ := h
    change (require _ _).bind (fun _ => require _ _) = _
    rw [decide_eq_true hnc, decide_eq_true (by omega : s.argInt 1 = 0 ∨ s.argInt 1 = 1)]
    rfl
  | false =>
    obtain ⟨hnc, -, harg, -⟩ := h
    change (require _ _).bind (fun _ => require _ _) = _
    rw [decide_eq_true hnc, decide_eq_true harg]
    rfl

theorem check4_error {s : State} (h : s.argInt 0 < 0 ∨ s.argInt 1 ≠ 0 ∧ s.argInt 1 ≠ 1) :
    check4 s = .error .badOperand := by
  change (require _ _).bind (fun _ => require _ _) = _
  rw [require_bind]
  by_cases hnc : 0 ≤ s.argInt 0
  · rw [if_pos (decide_eq_true hnc), require_eq, if_neg (by simp; omega)]
  · rw [if_neg (by simpa using hnc)]

theorem check2_error {s : State} (h : s.argInt 0 ≠ -1 ∨ s.argInt 1 ≠ 0) : check2 s = .error .badOperand := by
  change (require _ _).bind (fun _ => require _ _) = _
  rw [require_bind]
  by_cases hnc : s.argInt 0 = -1
  · rw [if_pos (decide_eq_true hnc), require_eq, if_neg (by simp; omega)]
  · rw [if_neg (by simpa using hnc)]

/-- CB after a decode command's block `cs` (43 R251, R253). -/
def blockCb (v : Vec16) (four : Bool) (maxN : Nat) (cs : List Int) : Vec16 :=
  if four then unscan cs (16 - maxN) else fillVec v 4 fun k => toWord (cs.getD k 0)

/-- The coefficient list that an encode command takes from CB (43 R250, R252). -/
def blockList (v : Vec16) (four : Bool) (maxN : Nat) : List Int := if four then scanList v (16 - maxN) else rasterList v

/-- The write-set of a decode command. -/
def decWrites (four : Bool) : WriteSet := cavlcWrites false (if four then 16 else 4)

/-- A block decoded and reported (43 R251, R253). -/
def State.readBlock (s : State) (four : Bool) (maxN : Nat) (nc : Int) : Except Err State :=
  (cavlcDecode maxN nc s.stream).bind fun p =>
    .ok ({ s.setStream p.2 with cb := blockCb s.cb four maxN p.1.coeffs }.reportBlock p.1.bits p.1.tc p.1.t1)

theorem exec_decInstr {s : State} {four : Bool} {maxN : Nat} {nc : Int} (h : s.BlockOperands four maxN nc) :
    exec (decInstr four) s = .next (s.decodeCommand (decWrites four) (.ok ()) fun _ => s.readBlock four maxN nc) := by
  have hcheck := blockCheck_of_operands h
  cases four with
  | true =>
    obtain ⟨-, rfl, ds, hds, harg, rfl⟩ := h
    have hds' : (s.argInt 1).toNat = 16 - (16 - ds) := by omega
    have hN : 16 - (s.argInt 1).toNat = 16 - ds := by omega
    change Host.Outcome.next (s.decodeCommand (decWrites true) (blockCheck true s) _) = _
    rw [State.decodeCommand_of_check s _ _ hcheck, hN, hds']
    rfl
  | false =>
    obtain ⟨-, rfl, -, rfl⟩ := h
    change Host.Outcome.next (s.decodeCommand (decWrites false) (blockCheck false s) _) = _
    rw [State.decodeCommand_of_check s _ _ hcheck]
    rfl

theorem exec_encInstr {s : State} {four : Bool} {maxN : Nat} {nc : Int} (h : s.BlockOperands four maxN nc) :
    exec (encInstr four) s = .next (s.encodeCommand (.ok ()) (blockList s.cb four maxN) maxN nc) := by
  have hcheck := blockCheck_of_operands h
  cases four with
  | true =>
    obtain ⟨-, rfl, ds, hds, harg, rfl⟩ := h
    have hds' : (s.argInt 1).toNat = 16 - (16 - ds) := by omega
    have hN : 16 - (s.argInt 1).toNat = 16 - ds := by omega
    change Host.Outcome.next (s.encodeCommand (blockCheck true s) _ _ _) = _
    rw [hcheck, hN, hds']
    rfl
  | false =>
    obtain ⟨-, rfl, -, rfl⟩ := h
    change Host.Outcome.next (s.encodeCommand (blockCheck false s) _ _ _) = _
    rw [hcheck]
    rfl

/-! ### CAVLC_DEC4 and CAVLC_DEC2 -/

theorem itemsBits_ne_nil {x : Item} {rest : List Item} {bs : List Bool} (hw : Writable (x :: rest))
    (h : itemsBits (x :: rest) = some bs) : 0 < bs.length := by
  obtain ⟨c, brest, rfl, -, rfl⟩ := itemsBits_cons_eq_some_iff.mp h
  obtain ⟨hpos, -⟩ := hw c List.mem_cons_self
  rw [List.length_append, codewordBits_length]
  omega

theorem cavlcItems_eq_cons (cs : List Int) (maxN : Nat) (nc : Int) :
    ∃ rest, cavlcItems cs maxN nc = codecStep (coeffToken (totalCoeff cs) (trailingOnes cs) nc) :: rest := ⟨_, rfl⟩

theorem cavlcItems_bits_pos {cs : List Int} {maxN : Nat} {nc : Int} {bs : List Bool}
    (h : itemsBits (cavlcItems cs maxN nc) = some bs) : 0 < bs.length := by
  obtain ⟨rest, heq⟩ := cavlcItems_eq_cons cs maxN nc
  have hw := cavlcItems_writable cs maxN nc
  rw [heq] at h hw
  exact itemsBits_ne_nil hw h

/-- The results of a block whose code is `bs` (43 R250 to R253). -/
def blockResults (cs : List Int) (bs : List Bool) : List Int :=
  [(bs.length : Int), ((cs.filter (fun c => decide (c ≠ 0))).length : Int), (trailingOnes cs : Int)]

theorem blockResults_eq (cs : List Int) (bs : List Bool) :
    blockResults cs bs = [((bs.length : Nat) : Int), ((totalCoeff cs : Nat) : Int), ((trailingOnes cs : Nat) : Int)] := by
  rw [blockResults, totalCoeff_eq_filter]

/-- A decode command of the code of `cs`: the list is in CB, and the code is taken. -/
theorem exec_decInstr_of_holds {s : State} {four : Bool} {nc : Int} {cs : List Int} {bs : List Bool}
    (hops : s.BlockOperands four cs.length nc) (hbits : itemsBits (cavlcItems cs cs.length nc) = some bs)
    (hst : s.Holds bs) : ∃ t, exec (decInstr four) s = .next t ∧
      t = { s with cb := blockCb s.cb four cs.length cs, bsPos := t.bsPos, res := t.res, status := 0 } ∧
      t.bsPos.toNat = s.bsPos.toNat + bs.length ∧ s.Results t (blockResults cs bs) := by
  have hbody : s.readBlock four cs.length nc = .ok (({ s with cb := blockCb s.cb four cs.length cs }.setStream
      (s.stream.skip bs.length)).setResList 0 (blockResults cs bs)) := by
    rw [State.readBlock, cavlcDecode_of_holds hbits (State.holds_iff_stream.mp hst), except_ok_bind, blockResults_eq]
    rfl
  have hroom : s.Room 1 := hst.room.mono (cavlcItems_bits_pos hbits)
  have htakes := State.takes_of_setResList (s := { s with cb := blockCb s.cb four cs.length cs })
    (st := s.stream.skip bs.length) (blockResults cs bs) hst.room rfl rfl
  obtain ⟨heq, hpos, hres⟩ := htakes
  exact ⟨_, (exec_decInstr hops).trans (congrArg _ (State.decodeCommand_ok (body := fun _ => s.readBlock four cs.length nc)
    rfl hroom hbody)), heq, hpos, hres⟩

theorem vecInt_vec16 (f : Nat → Word) : ∀ k < 16, vecInt (vec16 f) k = (f k).toInt := by
  intro k hk
  interval_cases k <;> rfl

/-- The position of a scan index: its own place in the zig-zag (43 R230). -/
theorem zigzag_idxOf : ∀ i < 16, zigzag.getD i 0 < 16 ∧ zigzag.idxOf (zigzag.getD i 0) = i ∧
    (1 ≤ i → zigzag.getD i 0 ≠ 0) := by decide

theorem vecInt_unscan {cs : List Int} {ds : Nat} (hds : ds ≤ 1) (hcs : ∀ c ∈ cs, inInt32 c = true) {k : Nat}
    (hk : k < cs.length) (hlen : cs.length = 16 - ds) : vecInt (unscan cs ds) (zigzag.getD (k + ds) 0) = cs.getD k 0 := by
  obtain ⟨hlt, hidx, hne⟩ := zigzag_idxOf (k + ds) (by omega)
  have hzero : ¬ (zigzag.getD (k + ds) 0 = 0 ∧ ds = 1) := fun ⟨h0, h1⟩ => hne (by omega) h0
  rw [unscan, vecInt_vec16 _ _ hlt, if_neg hzero, hidx, Nat.add_sub_cancel]
  rw [List.getD_eq_getElem _ _ hk]
  exact toInt_toWord (hcs _ (List.getElem_mem hk))

theorem vecInt_unscan_zero (cs : List Int) : vecInt (unscan cs 1) 0 = 0 := rfl

theorem vecInt_fillVec {n : Nat} (v : Vector Word n) (count : Nat) (f : Nat → Word) {k : Nat} (hk : k < n) :
    vecInt (fillVec v count f) k = if k < count then (f k).toInt else vecInt v k := by
  rw [vecInt, fillVec_getD _ _ _ _ hk]
  split <;> rfl

theorem State.blockOperands_four {s : State} {ds : Nat} (hds : ds ≤ 1) (hnc : 0 ≤ s.argInt 0) (harg : s.argInt 1 = ds) :
    s.BlockOperands true (16 - ds) (s.argInt 0) := ⟨hnc, rfl, ds, hds, harg, rfl⟩

theorem State.blockOperands_two {s : State} (hnc : s.argInt 0 = -1) (harg : s.argInt 1 = 0) :
    s.BlockOperands false 4 (-1) := ⟨hnc, rfl, harg, rfl⟩

theorem inInt32_of_mem_getD {cs : List Int} (hcs : ∀ c ∈ cs, inInt32 c = true) (k : Nat) :
    inInt32 (cs.getD k 0) = true := by
  by_cases hk : k < cs.length
  · rw [List.getD_eq_getElem _ _ hk]
    exact hcs _ (List.getElem_mem hk)
  · rw [List.getD_eq_default _ _ (Nat.le_of_not_lt hk)]
    decide

/-- Settles O34: CavlcDecode inverts CavlcEncode, element by element of the code. -/
theorem cavlcDecReads : Obligations.CavlcDecReads := by
  refine fun s cs bs hcs hst => ⟨fun ds hds hnc harg hlen hbits => ?_, fun hnc harg hlen hbits => ?_⟩
  · rw [← hlen] at hbits
    obtain ⟨t, hexec, heq, hpos, hres⟩ :=
      exec_decInstr_of_holds (four := true) (by rw [hlen]; exact s.blockOperands_four hds hnc harg) hbits hst
    have hcb : t.cb = unscan cs ds := by
      rw [heq]
      simp only [blockCb, if_pos, hlen]
      rw [show 16 - (16 - ds) = ds by omega]
    refine ⟨t, hexec, by rw [heq], hpos, hres, fun k hk => ?_, fun hone => ?_⟩
    · rw [hcb, vecInt_unscan hds hcs (by omega) hlen]
    · rw [hcb, hone, vecInt_unscan_zero]
  · rw [← hlen] at hbits
    obtain ⟨t, hexec, heq, hpos, hres⟩ :=
      exec_decInstr_of_holds (four := false) (by rw [hlen]; exact s.blockOperands_two hnc harg) hbits hst
    refine ⟨t, hexec, by rw [heq], hpos, hres, fun k hk => ?_⟩
    rw [show t.cb = fillVec s.cb 4 fun k => toWord (cs.getD k 0) by rw [heq]; rfl, vecInt_fillVec _ _ _ hk]
    exact if_congr Iff.rfl (toInt_toWord (inInt32_of_mem_getD hcs k)) rfl

end Sys2Proof.Machine
end

section
/-! PROOFS. The commands CAVLC_ENC4 and CAVLC_ENC2 (43 R250, R252), and the round trip (43 R241). -/

namespace Sys2Proof.Machine

/-! ### What an encode command does, by the bits and the raise of its writes -/

theorem State.encodeBlock_eq (s : State) (cs : List Int) (maxN : Nat) (nc : Int) : s.encodeBlock cs maxN nc =
    (s.stream.writeItems (cavlcItems cs maxN nc)).bind fun st =>
      .ok ((s.setStream st).reportBlock (st.pos - s.stream.pos) (totalCoeff cs) (trailingOnes cs)) := by
  change ((s.stream.writeItems (cavlcItems cs maxN nc)).bind _).bind _ = _
  cases s.stream.writeItems (cavlcItems cs maxN nc) <;> rfl

section
variable {s : State} {cs : List Int} {maxN : Nat} {nc : Int} {bs : List Bool}

theorem State.encodeBlock_of_bits (hbits : itemsBits (cavlcItems cs maxN nc) = some bs) (hroom : s.Room bs.length) :
    s.encodeBlock cs maxN nc = .ok ((s.setStream (s.stream.put bs)).setResList 0 (blockResults cs bs)) := by
  have hwrite : s.stream.writeItems (cavlcItems cs maxN nc) = .ok (s.stream.put bs) :=
    (Stream.writeItems_eq_ok_iff (cavlcItems_writable cs maxN nc)).mpr ⟨bs, hbits, .inr hroom, rfl⟩
  rw [State.encodeBlock_eq, hwrite, except_ok_bind, Stream.put_pos, Nat.add_sub_cancel_left, blockResults_eq]
  rfl

/-- With room for the bits of a block, the command writes and reports it. -/
theorem State.encodeCommand_emits (hbits : itemsBits (cavlcItems cs maxN nc) = some bs) (hroom : s.Room bs.length) :
    s.Emits (s.encodeCommand (.ok ()) cs maxN nc) bs (blockResults cs bs) := by
  have hbody := State.encodeBlock_of_bits hbits hroom
  have hwrite : s.stream.writeItems (cavlcItems cs maxN nc) = .ok (s.stream.put bs) :=
    (Stream.writeItems_eq_ok_iff (cavlcItems_writable cs maxN nc)).mpr ⟨bs, hbits, .inr hroom, rfl⟩
  have hend : s.encodeCommand (.ok ()) cs maxN nc =
      ((s.setStream (s.stream.put bs)).setResList 0 (blockResults cs bs)).succeed :=
    State.dirtyCommand_ok (State.firstWrite_of_writeItems hwrite) hbody
  rw [hend]
  exact State.emits_of_putBits_setResList _ hroom

/-- An encode command whose writes end with an error ends with that error, clean or dirty. -/
theorem State.encodeCommand_status_of_error {e : Err} (h : s.stream.writeItems (cavlcItems cs maxN nc) = .error e) :
    (s.encodeCommand (.ok ()) cs maxN nc).status = BitVec.ofNat 32 e.code := by
  have hbody : s.encodeBlock cs maxN nc = .error e := by rw [State.encodeBlock_eq, h]; rfl
  rcases s.encodeCommand_cases (.ok ()) cs maxN nc with
    ⟨_, hc, _⟩ | ⟨e', _, hfirst, hend⟩ | ⟨e', _, _, hb, hend⟩ | ⟨t, _, hb, _⟩
  · cases hc
  · obtain ⟨rest, hcons⟩ := cavlcItems_eq_cons cs maxN nc
    rw [hcons] at h hfirst
    have hsame : e' = e := by
      cases hx : codecStep (coeffToken (totalCoeff cs) (trailingOnes cs) nc) with
      | error e₁ =>
        rw [hx] at h hfirst
        cases h
        cases hfirst
        rfl
      | ok w =>
        rw [hx] at h hfirst
        rw [Stream.writeItems_ok] at h
        change (s.stream.writeCode w).bind (fun _ => .ok ()) = .error e' at hfirst
        cases hw : s.stream.writeCode w with
        | error e₁ =>
          rw [hw] at h hfirst
          cases h
          cases hfirst
          rfl
        | ok st =>
          rw [hw] at hfirst
          cases hfirst
    rw [hend, State.fail_eq, hsame]
  · cases hbody.symm.trans hb
    rw [hend, State.fail_eq]
  · cases hbody.symm.trans hb

/-- Where the bits before a raise, or all the bits, do not fit, the command ends with StreamOverflow. -/
theorem State.encodeCommand_overflow (hne : bs ≠ []) (hrun : (itemsRun (cavlcItems cs maxN nc)).1 = bs)
    (hroom : ¬ s.Room bs.length) : (s.encodeCommand (.ok ()) cs maxN nc).status = 4 := by
  refine State.encodeCommand_status_of_error (e := .streamOverflow) ?_
  rw [Stream.writeItems_eq (cavlcItems_writable cs maxN nc), hrun, if_neg fun h => h.elim hne hroom]

/-- Where the bits before a raise fit, the command ends with that raise. -/
theorem State.encodeCommand_raises {e : Err} (hrun : itemsRun (cavlcItems cs maxN nc) = (bs, some e))
    (hroom : bs = [] ∨ s.Room bs.length) : (s.encodeCommand (.ok ()) cs maxN nc).status = BitVec.ofNat 32 e.code := by
  refine State.encodeCommand_status_of_error ?_
  rw [Stream.writeItems_eq (cavlcItems_writable cs maxN nc), hrun]
  exact if_pos hroom

/-- An encode command that completes has written the bits of its block, which no raise ends. -/
theorem State.encodeCommand_completed (h : (s.encodeCommand (.ok ()) cs maxN nc).status = 0) :
    ∃ bs, itemsBits (cavlcItems cs maxN nc) = some bs ∧ s.Room bs.length := by
  cases hw : s.stream.writeItems (cavlcItems cs maxN nc) with
  | error e =>
    have hstatus := State.encodeCommand_status_of_error hw
    rw [h] at hstatus
    cases e <;> cases hstatus
  | ok st =>
    obtain ⟨bs, hbits, hroom, -⟩ := (Stream.writeItems_eq_ok_iff (cavlcItems_writable cs maxN nc)).mp hw
    refine ⟨bs, hbits, hroom.resolve_left ?_⟩
    rintro rfl
    exact absurd (cavlcItems_bits_pos hbits) (by decide)

end

/-! ### The round trip -/

theorem check4_eq_ok_iff {s : State} : check4 s = .ok () ↔ 0 ≤ s.argInt 0 ∧ (s.argInt 1 = 0 ∨ s.argInt 1 = 1) := by
  change (require _ _).bind (fun _ => require _ _) = _ ↔ _
  rw [require_bind, require_eq]
  split_ifs <;> simp_all

theorem check2_eq_ok_iff {s : State} : check2 s = .ok () ↔ s.argInt 0 = -1 ∧ s.argInt 1 = 0 := by
  change (require _ _).bind (fun _ => require _ _) = _ ↔ _
  rw [require_bind, require_eq]
  split_ifs <;> simp_all

theorem State.encodeCommand_check_of_completed {s : State} {check : Except Err Unit} {cs : List Int} {maxN : Nat}
    {nc : Int} (h : (s.encodeCommand check cs maxN nc).status = 0) : check = .ok () := by
  cases check with
  | error e => exact absurd h (s.fail_status_ne_zero e)
  | ok _ => rfl

theorem blockList_length {v : Vec16} {four : Bool} {maxN : Nat} {nc : Int} {s : State}
    (h : s.BlockOperands four maxN nc) : (blockList v four maxN).length = maxN := by
  cases four with
  | true =>
    obtain ⟨-, -, ds, hds, -, rfl⟩ := h
    rw [blockList, if_pos rfl, scanList, List.length_map, List.length_drop, show zigzag.length = 16 from rfl]
    omega
  | false =>
    obtain ⟨-, -, -, rfl⟩ := h
    rfl

theorem inInt32_vecInt {n : Nat} (v : Vector Word n) (k : Nat) : inInt32 (vecInt v k) = true := by
  rw [inInt32, within_eq_true_iff, vecInt]
  have hlow := BitVec.le_two_mul_toInt (x := v.getD k 0)
  have hhigh := BitVec.two_mul_toInt_lt (x := v.getD k 0)
  omega

theorem scanList_getD (v : Vec16) {ds k : Nat} (hk : k + ds < 16) :
    (scanList v ds).getD k 0 = vecInt v (zigzag.getD (k + ds) 0) := by
  have hlen : zigzag.length = 16 := rfl
  rw [scanList, List.getD_eq_getElem _ _ (by simp; omega), List.getElem_map, List.getElem_drop,
    List.getD_eq_getElem _ _ (by omega)]
  simp only [Nat.add_comm]

/-- A block's scan list put back is the block, but for element 0 where it is not in the list (43 R231, R251). -/
theorem vecInt_unscan_scanList (v : Vec16) {ds : Nat} (hds : ds ≤ 1) : ∀ k < 16,
    vecInt (unscan (scanList v ds) ds) k = if k = 0 ∧ ds = 1 then 0 else vecInt v k := by
  intro k hk
  rw [unscan, vecInt_vec16 _ _ hk]
  by_cases hzero : k = 0 ∧ ds = 1
  · rw [if_pos hzero, if_pos hzero]
    rfl
  · have hidx : ∀ k < 16, zigzag.idxOf k < 16 ∧ zigzag.getD (zigzag.idxOf k) 0 = k ∧
        (k ≠ 0 → 1 ≤ zigzag.idxOf k) := by decide
    obtain ⟨hlt, hget, hpos⟩ := hidx k hk
    have hle : ds ≤ zigzag.idxOf k := by
      rcases Nat.eq_zero_or_pos k with rfl | hk0
      · omega
      · have := hpos hk0.ne'
        omega
    rw [if_neg hzero, if_neg hzero, scanList_getD v (by omega), Nat.sub_add_cancel hle, hget]
    exact toInt_toWord (inInt32_vecInt v k)

theorem State.res_ext {s t : State} (h : ∀ i < 16, s.getRes i = t.getRes i) : s.res = t.res := by
  refine Vector.ext fun i hi => ?_
  have hget := h i hi
  simpa [State.getRes, Vector.getD, hi] using hget

/-- The decode command, at the position of the encode command that wrote the block, gives back the block. -/
theorem exec_decInstr_of_encoded {s t : State} {four : Bool} {maxN : Nat} {nc : Int} (old : Vec16)
    (hops : s.BlockOperands four maxN nc) (hexec : exec (encInstr four) s = .next t) (hstatus : t.status = 0) :
    ∃ u, exec (decInstr four) { t with bsPos := s.bsPos, cb := old } = .next u ∧ u.status = 0 ∧ u.bsPos = t.bsPos ∧
      u.bsbuf = t.bsbuf ∧ u.res = t.res ∧ u.cb = blockCb old four maxN (blockList s.cb four maxN) := by
  rw [exec_encInstr hops] at hexec
  obtain rfl : s.encodeCommand (.ok ()) (blockList s.cb four maxN) maxN nc = t := by injection hexec
  generalize hcs : blockList s.cb four maxN = cs at hstatus ⊢
  obtain ⟨bs, hbits, hroom⟩ := State.encodeCommand_completed hstatus
  obtain ⟨heq, ⟨hpos, hwritten, -⟩, hres⟩ := State.encodeCommand_emits hbits hroom
  have hlen : cs.length = maxN := hcs ▸ blockList_length hops
  generalize s.encodeCommand (.ok ()) cs maxN nc = t at heq hpos hwritten hres
  obtain rfl := hlen
  set s' : State := { t with bsPos := s.bsPos, cb := old } with hs'
  have harg : s'.arg = s.arg := by rw [hs', heq]
  have hops' : s'.BlockOperands four cs.length nc := by
    have hint : s'.argInt = s.argInt := by
      funext i
      simp only [State.argInt, State.getArg, harg]
    simpa only [State.BlockOperands, hint] using hops
  have hst : s'.Holds bs := by
    refine ⟨?_, hwritten⟩
    rw [hs', heq]
    exact hroom
  obtain ⟨u, hu, hueq, hupos, hures⟩ := exec_decInstr_of_holds hops' hbits hst
  refine ⟨u, hu, by rw [hueq], ?_, by rw [hueq], ?_, by rw [hueq]⟩
  · exact BitVec.eq_of_toNat_eq (hupos.trans hpos.symm)
  · refine State.res_ext fun i hi => ?_
    have hsame := hres i hi
    rw [hures i hi]
    split
    · next hlt => rw [hsame, if_pos hlt]
    · rfl

/-- Settles O35, by the decode of the bits that the encode command wrote. -/
theorem cavlcRoundTrip : Obligations.CavlcRoundTrip := by
  refine fun s t old hstatus => ⟨fun hexec => ?_, fun hexec => ?_⟩
  · have hcheck : check4 s = .ok () := State.encodeCommand_check_of_completed (by
      injection hexec with h
      rw [h]
      exact hstatus)
    obtain ⟨hnc, harg⟩ := check4_eq_ok_iff.mp hcheck
    have hround (ds : Nat) (hds : ds ≤ 1) (hds' : s.argInt 1 = ds) := by
      exact exec_decInstr_of_encoded (four := true) old (s.blockOperands_four hds hnc hds') hexec hstatus
    have hcb (ds : Nat) (hds : ds ≤ 1) (hds' : s.argInt 1 = ds) (k : Nat) (hk : k < 16) :
        vecInt (blockCb old true (16 - ds) (blockList s.cb true (16 - ds))) k =
          if k = 0 ∧ s.argInt 1 = 1 then 0 else vecInt s.cb k := by
      rw [blockCb, if_pos rfl, blockList, if_pos rfl, show 16 - (16 - ds) = ds by omega,
        vecInt_unscan_scanList s.cb hds k hk]
      exact if_congr (by omega) rfl rfl
    obtain ⟨ds, hds, hds'⟩ : ∃ ds : Nat, ds ≤ 1 ∧ s.argInt 1 = ds :=
      harg.elim (fun h => ⟨0, by decide, h⟩) fun h => ⟨1, le_rfl, h⟩
    obtain ⟨u, hu, hust, hpos, hbuf, hres, hucb⟩ := hround ds hds hds'
    exact ⟨u, hu, hust, hpos, hbuf, hres, fun k hk => hucb ▸ hcb ds hds hds' k hk⟩
  · have hcheck : check2 s = .ok () := State.encodeCommand_check_of_completed (by
      injection hexec with h
      rw [h]
      exact hstatus)
    obtain ⟨hnc, harg⟩ := check2_eq_ok_iff.mp hcheck
    obtain ⟨u, hu, hust, hpos, hbuf, hres, hucb⟩ :=
      exec_decInstr_of_encoded (four := false) old (s.blockOperands_two hnc harg) hexec hstatus
    refine ⟨u, hu, hust, hpos, hbuf, hres, fun k hk => ?_⟩
    rw [hucb, blockCb, if_neg Bool.false_ne_true, vecInt_fillVec _ _ _ hk]
    refine ite_congr rfl (fun hk4 => ?_) fun _ => rfl
    have hget : (blockList s.cb false 4).getD k 0 = vecInt s.cb k := by interval_cases k <;> rfl
    rw [hget]
    exact toInt_toWord (inInt32_vecInt s.cb k)

end Sys2Proof.Machine
end

section
/-! PROOFS. The raises of CavlcEncode (43 R234, R237): none for levels of at most 2^27, one for a level of 2^28. -/

namespace Sys2Proof.Machine

/-! ### Level codes that exist, and those that do not (43 R234) -/

theorem levelEscape_of_lt {e : Nat} (h : e + 4096 < 2 ^ 29) : ∃ x, levelEscape e = .ok x := by
  unfold levelEscape
  cases hfind : ((List.range 32).drop 16).find? (fun p => decide (e + 4096 < 2 ^ (p - 2))) with
  | some p => exact ⟨_, rfl⟩
  | none =>
    have hmem : 31 ∈ (List.range 32).drop 16 := by
      rw [List.range_eq_range', List.drop_range', List.mem_range'_1]
      decide
    exact absurd (decide_eq_true h) (List.find?_eq_none.mp hfind 31 hmem)

theorem levelEscape_of_le {e : Nat} (h : 2 ^ 29 ≤ e + 4096) : levelEscape e = .error .codecError := by
  unfold levelEscape
  cases hfind : ((List.range 32).drop 16).find? (fun p => decide (e + 4096 < 2 ^ (p - 2))) with
  | none => rfl
  | some p =>
    have hp : p < 32 := List.mem_range.mp (List.mem_of_mem_drop (List.mem_of_find?_eq_some hfind))
    have hlt : e + 4096 < 2 ^ (p - 2) := by simpa using List.find?_some hfind
    have hpow : 2 ^ (p - 2) ≤ 2 ^ 29 := Nat.pow_le_pow_right Nat.two_pos (by omega)
    exact absurd (Nat.lt_of_lt_of_le hlt hpow) (Nat.not_lt.mpr h)

theorem escapeBase_le {sL : Nat} (h : sL ≤ 6) : escapeBase sL ≤ 960 := by
  rw [escapeBase]
  interval_cases sL <;> decide

theorem levelCode_of_lt {lc sL : Nat} (h : lc < 2 ^ 28) : ∃ x, levelCode lc sL = .ok x := by
  rcases levelCode_cases lc sL with ⟨_, _, heq⟩ | ⟨_, _, _, heq⟩ | ⟨_, _, heq⟩ | ⟨_, heq⟩
  · exact ⟨_, heq⟩
  · exact ⟨_, heq⟩
  · exact ⟨_, heq⟩
  · rw [heq]
    by_cases hshort : lc - escapeBase sL < 4096
    · exact ⟨_, if_pos hshort⟩
    · rw [if_neg hshort]
      refine levelEscape_of_lt ?_
      have hpow : 2 ^ 28 + 4096 < 2 ^ 29 := by norm_num
      exact Nat.lt_of_le_of_lt (Nat.add_le_add_right (Nat.le_trans (Nat.sub_le ..) h.le) _) hpow

theorem levelCode_of_le {lc sL : Nat} (hsL : sL ≤ 6) (h : 2 ^ 29 - 4 ≤ lc) : levelCode lc sL = .error .codecError := by
  have hbase := escapeBase_le hsL
  have hpow : 2 ^ 29 = 536870912 := by norm_num
  rw [levelCode_of_escapeBase_le (by omega), if_neg (by omega)]
  exact levelEscape_of_le (by omega)

theorem levelCode_error {lc sL : Nat} {e : Err} (h : levelCode lc sL = .error e) : e = .codecError := by
  rcases levelCode_cases lc sL with ⟨_, _, heq⟩ | ⟨_, _, _, heq⟩ | ⟨_, _, heq⟩ | ⟨_, heq⟩
  · cases heq.symm.trans h
  · cases heq.symm.trans h
  · cases heq.symm.trans h
  · rw [heq] at h
    by_cases hshort : lc - escapeBase sL < 4096
    · rw [if_pos hshort] at h
      cases h
    · rw [if_neg hshort] at h
      rcases Nat.lt_or_ge (lc - escapeBase sL + 4096) (2 ^ 29) with hlt | hge
      · obtain ⟨x, hx⟩ := levelEscape_of_lt hlt
        cases hx.symm.trans h
      · cases (levelEscape_of_le hge).symm.trans h
        rfl

theorem chosenCode_lt {reduced : Bool} {lv : Int} (h : lv.natAbs ≤ 2 ^ 27) : chosenCode reduced lv < 2 ^ 28 := by
  have hpow : 2 ^ 28 = 2 * 2 ^ 27 := by norm_num
  have hpos : 0 < 2 ^ 27 := by norm_num
  rw [chosenCode, hpow]
  generalize 2 ^ 27 = q at h hpos ⊢
  simp only [levelCodeOf]
  split_ifs <;> omega

theorem le_chosenCode {reduced : Bool} {lv : Int} (h : 2 ^ 28 ≤ lv.natAbs) : 2 ^ 29 - 4 ≤ chosenCode reduced lv := by
  have hpow : 2 ^ 29 = 2 * 2 ^ 28 := by norm_num
  have hpos : 0 < 2 ^ 28 := by norm_num
  rw [chosenCode, hpow]
  generalize 2 ^ 28 = q at h hpos ⊢
  simp only [levelCodeOf]
  split_ifs <;> omega

/-! ### The writes of a block hold no raise for levels of at most 2^27 -/

/-- No write of the list is a raise. -/
def NoRaise (items : List Item) : Prop := ∀ x ∈ items, ∃ c, x = .ok c

theorem NoRaise.nil : NoRaise [] := fun _ h => by cases h

theorem NoRaise.cons {c : Codeword} {x : Item} {rest : List Item} (hx : x = .ok c) (h : NoRaise rest) :
    NoRaise (x :: rest) := fun _ hy => (List.mem_cons.mp hy).elim (fun heq => ⟨c, heq.trans hx⟩) (h _)

theorem NoRaise.append {xs ys : List Item} (hx : NoRaise xs) (hy : NoRaise ys) : NoRaise (xs ++ ys) :=
  fun x h => (List.mem_append.mp h).elim (hx x) (hy x)

theorem levelBits_noRaise (p suffix size : Nat) : NoRaise (levelBits p suffix size) := by
  refine NoRaise.cons rfl ?_
  split
  · exact NoRaise.nil.cons rfl
  · exact NoRaise.nil

theorem levelItems_noRaise {reduced : Bool} {sL : Nat} {lv : List Int} (h : ∀ l ∈ lv, l.natAbs ≤ 2 ^ 27) :
    NoRaise (levelItems reduced sL lv) := by
  induction lv generalizing reduced sL with
  | nil => exact NoRaise.nil
  | cons l rest ih =>
    obtain ⟨hl, hrest⟩ := List.forall_mem_cons.mp h
    obtain ⟨⟨p, suffix, size⟩, hcode⟩ := levelCode_of_lt (sL := sL) (chosenCode_lt (reduced := reduced) hl)
    rw [levelItems_cons_of_ok hcode]
    exact (levelBits_noRaise p suffix size).append (ih hrest)

/-- Each run of at most 14 zeros that are left has a codeword (42 R187). -/
theorem runItems_noRaise {zl : Nat} {rs : List Nat} (hzl : zl ≤ 14) (hsum : rs.sum ≤ zl) : NoRaise (runItems zl rs) := by
  induction rs generalizing zl with
  | nil => exact NoRaise.nil
  | cons r rest ih =>
    rw [List.sum_cons] at hsum
    rw [runItems]
    by_cases hpos : 0 < zl
    · have hsome := runBefore_covers (min zl 7) (by omega) (by omega) r (by omega) (by omega)
      obtain ⟨w, -, hlookup⟩ := lookupCode_of_isSome (t := rbTable zl) hsome
      have hcode : codecStep (rbCode r zl) = .ok w := by
        rw [codecStep_eq_ok_iff, rbCode_eq, if_pos (by omega)]
        exact hlookup
      rw [if_pos hpos]
      exact NoRaise.cons hcode (ih (by omega) (by omega))
    · rw [if_neg hpos]
      exact ih (by omega) (by omega)

theorem tzCode_ok {maxN tz tc : Nat} (hmax : maxN = 4 ∨ maxN ≤ 16) (hpos : 0 < tc) (hlt : tc < maxN)
    (hsum : tc + tz ≤ maxN) : ∃ w, codecStep (tzCode maxN tz tc) = .ok w := by
  have hfamily {n m : Nat} {tbl : Nat → VlcTable Nat} (htbl : IsTotalZeros n m tbl) (hn : tc ≤ n) (hm : tc + tz ≤ m) :
      ∃ w, codecStep (totalZerosCode n m tbl tz tc) = .ok w := by
    obtain ⟨w, -, hw⟩ := lookupCode_of_isSome ((htbl tc hn hpos).2 tz (by omega))
    refine ⟨w, codecStep_eq_ok_iff.mpr ?_⟩
    rw [totalZerosCode_eq, if_pos (by omega)]
    exact hw
  rw [tzCode_eq]
  split
  · exact hfamily tz22_isTotalZeros (by omega) (by omega)
  · exact hfamily tz4_isTotalZeros (by omega) (by omega)

theorem coeffToken_ok {c : CtClass} {nc : Int} (hc : c.Has nc) {tc t1 : Nat} (htc : tc ≤ maxTc c) (ht1 : t1 ≤ min 3 tc) :
    ∃ w, codecStep (coeffToken tc t1 nc) = .ok w := by
  obtain ⟨w, -, hw⟩ := lookupCode_of_isSome (ctTable_covers c tc htc t1 ht1)
  refine ⟨w, codecStep_eq_ok_iff.mpr ?_⟩
  rw [coeffToken_of_has hc, if_pos (by omega)]
  exact hw

/-- A context and a list length that the CAVLC commands may have: a coeff_token class that has all its counts. -/
def BlockShape (maxN : Nat) (nc : Int) : Prop := maxN ≤ 16 ∧ ∃ c : CtClass, c.Has nc ∧ maxN ≤ maxTc c

theorem blockShape_of_nonneg {maxN : Nat} {nc : Int} (hmax : maxN ≤ 16) (hnc : 0 ≤ nc) : BlockShape maxN nc := by
  refine ⟨hmax, ?_⟩
  by_cases h2 : nc < 2
  · exact ⟨.c01, by simp only [CtClass.Has]; omega, hmax⟩
  by_cases h4 : nc < 4
  · exact ⟨.c23, by simp only [CtClass.Has]; omega, hmax⟩
  by_cases h8 : nc < 8
  · exact ⟨.c47, by simp only [CtClass.Has]; omega, hmax⟩
  · exact ⟨.c8, by simp only [CtClass.Has]; omega, hmax⟩

theorem blockShape_two : BlockShape 4 (-1) := ⟨by decide, .cM1, rfl, le_rfl⟩

theorem State.BlockOperands.shape {s : State} {four : Bool} {maxN : Nat} {nc : Int} (h : s.BlockOperands four maxN nc) :
    BlockShape maxN nc := by
  cases four with
  | true =>
    obtain ⟨hnc, rfl, ds, -, -, rfl⟩ := h
    exact blockShape_of_nonneg (Nat.sub_le ..) hnc
  | false =>
    obtain ⟨-, rfl, -, rfl⟩ := h
    exact blockShape_two

theorem totalCoeff_le (cs : List Int) : totalCoeff cs ≤ cs.length :=
  Nat.le_trans (Nat.le_add_right ..) (totalCoeff_add_totalZeros_le cs)

theorem trailingOnes_le_totalCoeff (cs : List Int) : trailingOnes cs ≤ totalCoeff cs :=
  levels_length cs ▸ trailingOnes_le_length cs

theorem signs_noRaise (ones : List Int) : NoRaise (ones.map fun l => .ok (signCode l)) := fun x hx => by
  obtain ⟨l, -, rfl⟩ := List.mem_map.mp hx
  exact ⟨_, rfl⟩

theorem mem_of_mem_levels {cs : List Int} {l : Int} (h : l ∈ levels cs) : l ∈ cs :=
  List.mem_of_mem_filter (List.mem_reverse.mp h)

/-- The writes of a list with levels of at most 2^27 hold no raise (43 R234, R237). -/
theorem cavlcItems_noRaise {cs : List Int} {nc : Int} (hshape : BlockShape cs.length nc)
    (h : ∀ c ∈ cs, c.natAbs ≤ 2 ^ 27) : NoRaise (cavlcItems cs cs.length nc) := by
  obtain ⟨hmax, c, hc, hcmax⟩ := hshape
  have hle := totalCoeff_le cs
  have hsum := totalCoeff_add_totalZeros_le cs
  have ht1 : trailingOnes cs ≤ min 3 (totalCoeff cs) := le_min (trailingOnes_le cs) (trailingOnes_le_totalCoeff cs)
  obtain ⟨w, hw⟩ := coeffToken_ok hc (Nat.le_trans hle hcmax) ht1
  rcases Nat.eq_zero_or_pos (totalCoeff cs) with hzero | hpos
  · rw [cavlcItems_of_zero hzero]
    rw [hzero] at hw
    exact NoRaise.nil.cons hw
  · have hhead : NoRaise (headItems nc (totalCoeff cs) (blockOnes cs) (blockRest cs)) := by
      rw [headItems, blockOnes_length]
      exact (NoRaise.cons hw (signs_noRaise _)).append
        (levelItems_noRaise fun l hl => h l (mem_of_mem_levels (List.mem_of_mem_drop hl)))
    obtain ⟨hruns, -, hlen⟩ := totalZeros_sub_runs cs hpos
    have htail : NoRaise (tailItems cs.length (totalCoeff cs) (totalZeros cs) (runs cs)) := by
      refine NoRaise.append ?_ ?_
      · split
        · next hlt =>
          obtain ⟨wz, hwz⟩ := tzCode_ok (.inr hmax) hpos hlt hsum
          exact NoRaise.nil.cons hwz
        · exact NoRaise.nil
      · rcases Nat.lt_or_ge (totalCoeff cs) 2 with hone | htwo
        · have hnil : runs cs = [] := List.length_eq_zero_iff.mp (by omega)
          rw [hnil]
          exact NoRaise.nil
        · exact runItems_noRaise (by omega) hruns
    rw [cavlcItems_of_pos hpos]
    exact hhead.append htail

/-! ### Every raise is CodecError (43 R234, R237) -/

/-- Every raise among the writes is CodecError. -/
def RaisesCodec (items : List Item) : Prop := ∀ e, .error e ∈ items → e = .codecError

theorem RaisesCodec.nil : RaisesCodec [] := fun _ h => by cases h

theorem RaisesCodec.cons {x : Item} {rest : List Item} (hx : ∀ e, x = .error e → e = .codecError)
    (h : RaisesCodec rest) : RaisesCodec (x :: rest) :=
  fun e he => (List.mem_cons.mp he).elim (fun heq => hx e heq.symm) (h e)

theorem RaisesCodec.append {xs ys : List Item} (hx : RaisesCodec xs) (hy : RaisesCodec ys) : RaisesCodec (xs ++ ys) :=
  fun e he => (List.mem_append.mp he).elim (hx e) (hy e)

theorem RaisesCodec.of_noRaise {xs : List Item} (h : NoRaise xs) : RaisesCodec xs := fun e he => by
  obtain ⟨c, hc⟩ := h _ he
  cases hc

theorem levelItems_raisesCodec (reduced : Bool) (sL : Nat) (lv : List Int) :
    RaisesCodec (levelItems reduced sL lv) := by
  induction lv generalizing reduced sL with
  | nil => exact RaisesCodec.nil
  | cons l rest ih =>
    cases hcode : levelCode (chosenCode reduced l) sL with
    | error e =>
      rw [levelItems_cons_of_error hcode]
      exact RaisesCodec.nil.cons fun e' he => by cases he; exact levelCode_error hcode
    | ok x =>
      rw [levelItems_cons_of_ok hcode]
      exact (RaisesCodec.of_noRaise (levelBits_noRaise x.1 x.2.1 x.2.2)).append (ih false _)

theorem lookupCode_error {σ : Type} [DecidableEq σ] {t : VlcTable σ} {x : σ} {e : Err}
    (h : lookupCode t x = .error e) : e = .tableMiss := by
  rw [lookupCode] at h
  split at h <;> cases h
  rfl

/-- A codebook step that only misses its table raises CodecError (43 R237). -/
theorem codecStep_raises {α : Type} {x : Except Err α} (hx : ∀ e, x = .error e → e = .tableMiss) (e : Err)
    (h : codecStep x = .error e) : e = .codecError := by
  obtain ⟨e', he', rfl⟩ := codecStep_eq_error_iff.mp h
  rw [hx e' he']
  rfl

theorem guardedLookup_error {σ : Type} [DecidableEq σ] {p : Prop} [Decidable p] {t : VlcTable σ} {x : σ} {e : Err}
    (h : (if p then lookupCode t x else .error .tableMiss) = .error e) : e = .tableMiss := by
  split at h
  · exact lookupCode_error h
  · cases h
    rfl

theorem tzCode_error {maxN tz tc : Nat} {e : Err} (h : tzCode maxN tz tc = .error e) : e = .tableMiss := by
  rw [tzCode_eq, totalZerosCode_eq, totalZerosCode_eq] at h
  split at h <;> exact guardedLookup_error h

theorem cavlcItems_raisesCodec {cs : List Int} {maxN : Nat} {nc : Int} (hnc : -2 ≤ nc) :
    RaisesCodec (cavlcItems cs maxN nc) := by
  have htoken (tc t1 : Nat) (e : Err) (h : codecStep (coeffToken tc t1 nc) = .error e) : e = .codecError := by
    refine codecStep_raises (fun e' he' => ?_) e h
    obtain ⟨c, hc⟩ : ∃ c, ncClass nc = .ok c := by
      rw [ncClass, if_neg (by omega)]
      split_ifs <;> exact ⟨_, rfl⟩
    rw [coeffToken_of_has (ncClass_eq_ok_iff.mp hc)] at he'
    exact guardedLookup_error he'
  have hruns (zl : Nat) (rs : List Nat) : RaisesCodec (runItems zl rs) := by
    induction rs generalizing zl with
    | nil => exact RaisesCodec.nil
    | cons r rest ih =>
      rw [runItems]
      split
      · exact (ih _).cons (codecStep_raises fun e he => guardedLookup_error ((rbCode_eq ..).symm.trans he))
      · exact ih _
  rcases Nat.eq_zero_or_pos (totalCoeff cs) with hzero | hpos
  · rw [cavlcItems_of_zero hzero]
    exact RaisesCodec.nil.cons (htoken 0 _)
  · rw [cavlcItems_of_pos hpos, headItems, tailItems]
    refine ((RaisesCodec.cons (htoken _ _) (RaisesCodec.of_noRaise (signs_noRaise _))).append
      (levelItems_raisesCodec _ _ _)).append (RaisesCodec.append ?_ (hruns _ _))
    split
    · exact RaisesCodec.nil.cons (codecStep_raises fun _ => tzCode_error)
    · exact RaisesCodec.nil

theorem mem_of_itemsRun {items : List Item} {bs : List Bool} {e : Err} (h : itemsRun items = (bs, some e)) :
    .error e ∈ items := by
  induction items generalizing bs with
  | nil => cases h
  | cons x rest ih =>
    cases x with
    | error e' =>
      cases h
      exact List.mem_cons_self
    | ok c => exact List.mem_cons_of_mem _ (ih (Prod.ext rfl (Prod.mk.inj h).2))

/-! ### A level of 2^28 is a raise, after at most 1024 bits -/

/-- The bits of a list of writes are at most as many as those of its parts. -/
theorem itemsRun_append_length (xs ys : List Item) :
    (itemsRun (xs ++ ys)).1.length ≤ (itemsRun xs).1.length + (itemsRun ys).1.length := by
  induction xs with
  | nil => exact (Nat.zero_add _).ge
  | cons x rest ih =>
    cases x with
    | error e => exact Nat.zero_le _
    | ok c =>
      simp only [List.cons_append, itemsRun, List.length_append]
      omega

/-- A raise in the first part ends the whole list. -/
theorem itemsRun_append_of_raise {xs : List Item} (h : (itemsRun xs).2.isSome = true) (ys : List Item) :
    itemsRun (xs ++ ys) = itemsRun xs := by
  induction xs with
  | nil => cases h
  | cons x rest ih =>
    cases x with
    | error e => rfl
    | ok c => simp only [List.cons_append, itemsRun, ih h]

theorem itemsRun_append_isSome {xs ys : List Item} (h : (itemsRun ys).2.isSome = true) :
    (itemsRun (xs ++ ys)).2.isSome = true := by
  induction xs with
  | nil => exact h
  | cons x rest ih =>
    cases x with
    | error e => rfl
    | ok c => exact ih

theorem itemsRun_length_le {items : List Item} (h : Writable items) : (itemsRun items).1.length ≤ 32 * items.length := by
  induction items with
  | nil => exact le_rfl
  | cons x rest ih =>
    cases x with
    | error e => exact Nat.zero_le _
    | ok c =>
      obtain ⟨-, hlen⟩ := h c List.mem_cons_self
      have hrest := ih h.of_cons
      simp only [itemsRun, List.length_append, codewordBits_length, List.length_cons]
      omega

theorem levelBits_length_le {lc sL p suffix size : Nat} (hsL : sL ≤ 6) (h : levelCode lc sL = .ok (p, suffix, size)) :
    (itemsRun (levelBits p suffix size)).1.length ≤ 60 := by
  obtain ⟨hp, -⟩ := levelCodeInverse lc sL p suffix size h
  have hsize := levelCode_size_le (by omega) h
  have hlen : (prefixCode p).len = p + 1 := rfl
  rw [itemsBits_eq_some_iff.mp levelBits_itemsBits, List.length_append, codewordBits_length, bitsOf_length, hlen]
  omega

theorem levelItems_length_le {sL : Nat} (hsL : sL ≤ 6) (reduced : Bool) (lv : List Int) :
    (itemsRun (levelItems reduced sL lv)).1.length ≤ 60 * lv.length := by
  induction lv generalizing reduced sL with
  | nil => exact le_rfl
  | cons l rest ih =>
    cases hcode : levelCode (chosenCode reduced l) sL with
    | error e =>
      rw [levelItems_cons_of_error hcode]
      exact Nat.zero_le _
    | ok x =>
      obtain ⟨p, suffix, size⟩ := x
      have hfirst := levelBits_length_le hsL hcode
      have hrest := ih (nextSuffix_le hsL l) false
      have happend := itemsRun_append_length (levelBits p suffix size) (levelItems false (nextSuffix sL l) rest)
      rw [levelItems_cons_of_ok hcode, List.length_cons]
      omega

theorem levelItems_raises {sL : Nat} (hsL : sL ≤ 6) {reduced : Bool} {lv : List Int}
    (h : ∃ l ∈ lv, 2 ^ 28 ≤ l.natAbs) : (itemsRun (levelItems reduced sL lv)).2.isSome = true := by
  induction lv generalizing reduced sL with
  | nil =>
    obtain ⟨l, hl, -⟩ := h
    cases hl
  | cons l rest ih =>
    cases hcode : levelCode (chosenCode reduced l) sL with
    | error e =>
      rw [levelItems_cons_of_error hcode]
      rfl
    | ok x =>
      have hsmall : ¬ 2 ^ 28 ≤ l.natAbs := fun hbig => by
        cases (levelCode_of_le hsL (le_chosenCode hbig)).symm.trans hcode
      rw [levelItems_cons_of_ok hcode]
      refine itemsRun_append_isSome (ih (nextSuffix_le hsL l) ?_)
      obtain ⟨l', hl', hbig⟩ := h
      rcases List.mem_cons.mp hl' with rfl | hmem
      · exact absurd hbig hsmall
      · exact ⟨l', hmem, hbig⟩

/-- A list with a level of 2^28 ends with a raise, after at most 1024 bits. -/
theorem cavlcItems_raises {cs : List Int} {maxN : Nat} {nc : Int} (hlen : cs.length ≤ 16) (h : ∃ c ∈ cs, 2 ^ 28 ≤ c.natAbs) :
    (itemsRun (cavlcItems cs maxN nc)).2.isSome = true ∧ (itemsRun (cavlcItems cs maxN nc)).1.length ≤ 1024 := by
  obtain ⟨c, hc, hbig⟩ := h
  have hpow : 1 < 2 ^ 28 := by norm_num
  have hlevel : c ∈ levels cs := by
    rw [levels, List.mem_reverse, List.mem_filter]
    exact ⟨hc, decide_eq_true fun h0 => by subst h0; omega⟩
  have hpos : 0 < totalCoeff cs := levels_length cs ▸ List.length_pos_of_mem hlevel
  have hrest : c ∈ blockRest cs := by
    rw [← blockOnes_append_blockRest, List.mem_append] at hlevel
    refine hlevel.resolve_left fun hone => ?_
    have := (headOk_block cs).1 c hone
    omega
  have hlens := block_lengths cs
  have hle := totalCoeff_le cs
  have hones : (blockOnes cs).length ≤ 3 := blockOnes_length cs ▸ trailingOnes_le cs
  have hsigns : (itemsRun (codecStep (coeffToken (totalCoeff cs) (blockOnes cs).length nc) ::
      (blockOnes cs).map fun l => .ok (signCode l))).1.length ≤ 32 + 3 := by
    have htoken := itemsRun_length_le (Writable.single fun c =>
      coeffToken_writable (tc := totalCoeff cs) (t1 := (blockOnes cs).length) (nc := nc) (c := c))
    have hsign : (itemsRun ((blockOnes cs).map fun l => .ok (signCode l))).1.length = (blockOnes cs).length := by
      rw [itemsBits_eq_some_iff.mp (signs_itemsBits _), List.length_map]
    have happend := itemsRun_append_length [codecStep (coeffToken (totalCoeff cs) (blockOnes cs).length nc)]
      ((blockOnes cs).map fun l => .ok (signCode l))
    rw [List.singleton_append] at happend
    rw [List.length_singleton] at htoken
    omega
  have hlevels := levelItems_length_le (initialSuffix_le (totalCoeff cs) (blockOnes cs).length)
    (decide ((blockOnes cs).length < 3)) (blockRest cs)
  have hraise : (itemsRun (headItems nc (totalCoeff cs) (blockOnes cs) (blockRest cs))).2.isSome = true :=
    itemsRun_append_isSome (levelItems_raises (initialSuffix_le ..) ⟨c, hrest, hbig⟩)
  rw [cavlcItems_of_pos hpos, itemsRun_append_of_raise hraise]
  refine ⟨hraise, ?_⟩
  have happend := itemsRun_append_length (codecStep (coeffToken (totalCoeff cs) (blockOnes cs).length nc) ::
    (blockOnes cs).map fun l => .ok (signCode l)) (levelItems (decide ((blockOnes cs).length < 3))
      (initialSuffix (totalCoeff cs) (blockOnes cs).length) (blockRest cs))
  rw [headItems]
  omega

end Sys2Proof.Machine
end

section
/-! PROOFS. How the CAVLC encode commands end (43 R234, R237, R250, R252). -/

namespace Sys2Proof.Machine

theorem scanList_eq (v : Vec16) {ds : Nat} (hds : ds ≤ 1) :
    scanList v ds = (List.range (16 - ds)).map fun k => vecInt v (zigzag.getD (k + ds) 0) := by
  refine List.ext_getElem ?_ fun k h1 h2 => ?_
  · rw [scanList, List.length_map, List.length_drop, List.length_map, List.length_range]
    rfl
  · rw [List.length_map, List.length_range] at h2
    rw [← List.getD_eq_getElem _ 0 h1, scanList_getD v (by omega), List.getElem_map, List.getElem_range]

theorem blockList_eq {s : State} {four : Bool} {maxN : Nat} {nc : Int} (h : s.BlockOperands four maxN nc) (v : Vec16) :
    blockList v four maxN = if four then (List.range maxN).map fun k => vecInt v (zigzag.getD (k + (16 - maxN)) 0)
      else (List.range 4).map fun k => vecInt v k := by
  cases four with
  | false => rw [blockList, if_neg Bool.false_ne_true, if_neg Bool.false_ne_true, rasterList]
  | true =>
    obtain ⟨-, -, ds, hds, -, hmax⟩ := h
    have hsub : 16 - maxN = ds := by omega
    rw [blockList, if_pos rfl, if_pos rfl, hsub, scanList_eq v hds, hmax]

section
variable {s : State} {four : Bool} {maxN : Nat} {nc : Int}

/-- A block with no raise is written and reported where it fits, and ends with StreamOverflow where it does not. -/
theorem exec_encInstr_of_bits (hops : s.BlockOperands four maxN nc) {bs : List Bool}
    (hbits : itemsBits (cavlcItems (blockList s.cb four maxN) maxN nc) = some bs) :
    (s.Room bs.length → ∃ t, exec (encInstr four) s = .next t ∧
      s.Emits t bs (blockResults (blockList s.cb four maxN) bs)) ∧
    (¬ s.Room bs.length → ∃ t, exec (encInstr four) s = .next t ∧ t.status = 4) := by
  refine ⟨fun hroom => ⟨_, exec_encInstr hops, State.encodeCommand_emits hbits hroom⟩,
    fun hroom => ⟨_, exec_encInstr hops, State.encodeCommand_overflow ?_ ?_ hroom⟩⟩
  · rintro rfl
    exact absurd (cavlcItems_bits_pos hbits) (by decide)
  · rw [itemsBits_eq_some_iff.mp hbits]

/-- A block with a raise ends with CodecError where the bits before it fit, and with StreamOverflow where not. -/
theorem exec_encInstr_of_raise (hops : s.BlockOperands four maxN nc) {bs : List Bool} {e : Err}
    (hrun : itemsRun (cavlcItems (blockList s.cb four maxN) maxN nc) = (bs, some e)) :
    (bs = [] ∨ s.Room bs.length → Ends (encInstr four) s 2) ∧
    (bs ≠ [] → ¬ s.Room bs.length → Ends (encInstr four) s 4) := by
  obtain ⟨-, c, hc, -⟩ := hops.shape
  have hnc : -2 ≤ nc := by cases c <;> simp only [CtClass.Has] at hc <;> omega
  obtain rfl := cavlcItems_raisesCodec hnc e (mem_of_itemsRun hrun)
  refine ⟨fun hroom => ⟨_, exec_encInstr hops, State.encodeCommand_raises hrun hroom⟩,
    fun hne hroom => ⟨_, exec_encInstr hops, State.encodeCommand_overflow hne ?_ hroom⟩⟩
  rw [hrun]

/-- The first write of a block, its coeff_token, is no raise. -/
theorem itemsRun_ne_nil (hops : s.BlockOperands four maxN nc) :
    (itemsRun (cavlcItems (blockList s.cb four maxN) maxN nc)).1 ≠ [] := by
  obtain ⟨-, c, hc, hmax⟩ := hops.shape
  generalize hcs : blockList s.cb four maxN = cs
  have hle := (totalCoeff_le cs).trans (hcs ▸ blockList_length hops).le
  obtain ⟨w, hw⟩ := coeffToken_ok hc (hle.trans hmax)
    (le_min (trailingOnes_le cs) (trailingOnes_le_totalCoeff cs))
  obtain ⟨rest, hcons⟩ := cavlcItems_eq_cons cs maxN nc
  obtain ⟨hpos, -⟩ := coeffToken_writable hw
  rw [hcons, hw, itemsRun]
  exact List.append_ne_nil_of_left_ne_nil (List.ne_nil_of_length_pos (by rwa [codewordBits_length])) _

theorem exec_encInstr_of_large (hops : s.BlockOperands four maxN nc)
    (h : ∃ c ∈ blockList s.cb four maxN, 2 ^ 28 ≤ c.natAbs) (hroom : s.Room 1024) : Ends (encInstr four) s 2 := by
  obtain ⟨hmax, -⟩ := hops.shape
  have hlen : (blockList s.cb four maxN).length ≤ 16 := (blockList_length hops).le.trans hmax
  obtain ⟨hsome, hbits⟩ := cavlcItems_raises (maxN := maxN) (nc := nc) hlen h
  obtain ⟨e, he⟩ := Option.isSome_iff_exists.mp hsome
  exact (exec_encInstr_of_raise hops (Prod.ext rfl he)).1 (.inr (hroom.mono hbits))

/-- Where the first codeword does not fit, nothing else changes. -/
theorem exec_encInstr_of_first_overflow (hops : s.BlockOperands four maxN nc) {w : Codeword} {rest : List Item}
    (hitems : cavlcItems (blockList s.cb four maxN) maxN nc = .ok w :: rest) (hroom : ¬ s.Room w.len) :
    exec (encInstr four) s = .next (s.endsClean 4) := by
  obtain ⟨-, hlen⟩ := cavlcItems_writable _ _ _ w (hitems ▸ List.mem_cons_self)
  have hfirst : s.firstWrite (cavlcItems (blockList s.cb four maxN) maxN nc) = .error .streamOverflow := by
    rw [hitems, s.firstWrite_ok w rest hlen]
    exact if_neg hroom
  rw [exec_encInstr hops, State.encodeCommand, hfirst]
  exact congrArg _ (s.fail_eq_endsClean .streamOverflow)

end

/-- The obligation's clauses for a block with no large level. -/
theorem cavlcEnc_small {s : State} {four : Bool} {maxN : Nat} {nc : Int} (hops : s.BlockOperands four maxN nc)
    (h : ∀ c ∈ blockList s.cb four maxN, c.natAbs ≤ 2 ^ 27) :
    ∃ bs, itemsBits (cavlcItems (blockList s.cb four maxN) maxN nc) = some bs ∧
      (s.Room bs.length → ∃ t, exec (encInstr four) s = .next t ∧
        s.Emits t bs (blockResults (blockList s.cb four maxN) bs)) ∧
      (¬ s.Room bs.length → ∃ t, exec (encInstr four) s = .next t ∧ t.status = 4) := by
  have hlen := blockList_length hops (v := s.cb)
  have hraise : NoRaise (cavlcItems (blockList s.cb four maxN) maxN nc) := by
    have hshape := hops.shape
    rw [← hlen] at hshape
    have := cavlcItems_noRaise hshape h
    rwa [hlen] at this
  obtain ⟨bs, hbits⟩ := exists_itemsBits hraise
  exact ⟨bs, hbits, exec_encInstr_of_bits hops hbits⟩

theorem natAbs_blockList_le {v : Vec16} {n : Nat} (h : ∀ k < 16, (vecInt v k).natAbs ≤ n) (maxN : Nat) :
    ∀ c ∈ blockList v true maxN, c.natAbs ≤ n := by
  intro c hc
  obtain ⟨k, hk, rfl⟩ := List.mem_map.mp hc
  have hbound : ∀ k ∈ zigzag, k < 16 := by decide
  exact h k (hbound k (List.mem_of_mem_drop hk))

theorem exec_check4_error {s : State} (h : s.argInt 0 < 0 ∨ s.argInt 1 ≠ 0 ∧ s.argInt 1 ≠ 1) :
    exec .cavlcEnc4 s = .next (s.endsClean 5) ∧ exec .cavlcDec4 s = .next (s.endsClean 5) := by
  have hcheck := check4_error h
  refine ⟨?_, congrArg _ (State.decodeCommand_of_check_error s _ _ hcheck)⟩
  change Host.Outcome.next (s.encodeCommand (check4 s) _ _ _) = _
  rw [hcheck]
  exact congrArg _ (s.fail_eq_endsClean .badOperand)

theorem exec_check2_error {s : State} (h : s.argInt 0 ≠ -1 ∨ s.argInt 1 ≠ 0) :
    exec .cavlcEnc2 s = .next (s.endsClean 5) ∧ exec .cavlcDec2 s = .next (s.endsClean 5) := by
  have hcheck := check2_error h
  refine ⟨?_, congrArg _ (State.decodeCommand_of_check_error s _ _ hcheck)⟩
  change Host.Outcome.next (s.encodeCommand (check2 s) _ _ _) = _
  rw [hcheck]
  exact congrArg _ (s.fail_eq_endsClean .badOperand)

/-- Settles O33, by the bits and the first raise of the block's writes. -/
theorem cavlcEncWrites : Obligations.CavlcEncWrites := by
  refine fun s => ⟨fun ds hds hnc harg hsmall => ?_, fun hnc harg hsmall => ?_, fun four maxN nc hops => ?_,
    exec_check4_error, exec_check2_error⟩
  · have hlist : blockList s.cb true (16 - ds) =
        (List.range (16 - ds)).map fun k => vecInt s.cb (zigzag.getD (k + ds) 0) := by
      rw [blockList, if_pos rfl, scanList_eq s.cb (by omega), show 16 - (16 - ds) = ds by omega]
    have hall := cavlcEnc_small (s.blockOperands_four hds hnc harg) (natAbs_blockList_le hsmall _)
    rw [hlist] at hall
    exact hall
  · have hlist : blockList s.cb false 4 = (List.range 4).map fun k => vecInt s.cb k := rfl
    have hall := cavlcEnc_small (s.blockOperands_two hnc harg) fun c hc => by
      obtain ⟨k, hk, rfl⟩ := List.mem_map.mp (hlist ▸ hc)
      exact hsmall k (List.mem_range.mp hk)
    rw [hlist] at hall
    exact hall
  · intro i cs
    have hlist : blockList s.cb four maxN = cs := blockList_eq hops s.cb
    refine ⟨fun hlarge hroom => exec_encInstr_of_large hops (hlist ▸ hlarge) hroom,
      fun w rest hitems hroom => exec_encInstr_of_first_overflow hops (hlist ▸ hitems) hroom,
      fun pre e rest bs hitems hpre => ?_⟩
    have hrun : itemsRun (cavlcItems (blockList s.cb four maxN) maxN nc) = (bs, some e) := by
      rw [hlist, hitems, itemsRun_append hpre, itemsRun, List.append_nil]
    have hne : bs ≠ [] := by
      have hfirst := itemsRun_ne_nil hops
      rwa [hrun] at hfirst
    have hends := exec_encInstr_of_raise hops hrun
    exact ⟨fun hroom => hends.1 (.inr hroom), hends.2 hne⟩

end Sys2Proof.Machine
end

section
/-! PROOFS. How the CAVLC decode commands end with CodecError or StreamExhausted (43 R237, R241). -/

namespace Sys2Proof.Machine

/-- With no bit left a block is StreamExhausted: its coeff_token is read first (43 R241). -/
theorem cavlcDecode_of_no_room {maxN : Nat} {nc : Int} {c : CtClass} (hc : c.Has nc) {st : Stream}
    (h : ¬ st.pos + 1 ≤ st.len) : cavlcDecode maxN nc st = .error .streamExhausted := by
  have hbook := ctTable_isCodebook c
  have hpos := hbook.maxLen_pos
  have hwalk := hbook.vlcWalk_of_no_codeword (st := st) fun e he hst => by
    obtain ⟨hlen, -⟩ := hbook.entry he
    have hroom := hst.1
    rw [codewordBits_length] at hroom
    omega
  refine cavlcDecode_of_error (e := .streamExhausted) ?_
  rw [decodeBlock, ncClass_of_has hc, except_ok_bind, hwalk, if_neg (by omega)]
  rfl

section
variable {s : State} {four : Bool} {maxN : Nat} {nc : Int}

/-- A decode command whose block ends with an error ends with that error, clean or dirty. -/
theorem exec_decInstr_of_error (hops : s.BlockOperands four maxN nc) {e : Err}
    (h : cavlcDecode maxN nc s.stream = .error e) : Ends (decInstr four) s (BitVec.ofNat 32 e.code) := by
  have hbody : s.readBlock four maxN nc = .error e := by rw [State.readBlock, h]; rfl
  refine ⟨_, exec_decInstr hops, State.decodeCommand_status_of_error
    (body := fun _ => s.readBlock four maxN nc) rfl hbody fun hroom => ?_⟩
  obtain ⟨-, c, hc, -⟩ := hops.shape
  cases h.symm.trans (cavlcDecode_of_no_room hc hroom)
  rfl

/-- A block that misses a table, or has a value out of range, is CodecError (43 R237). -/
theorem exec_decInstr_of_miss (hops : s.BlockOperands four maxN nc) {e : Err} (he : asCodecError e = .codecError)
    (h : decodeBlock maxN nc s.stream = .error e) : Ends (decInstr four) s 2 :=
  exec_decInstr_of_error hops ((cavlcDecode_of_error h).trans (congrArg _ he))

theorem exec_decInstr_of_exhausted (hops : s.BlockOperands four maxN nc)
    (h : decodeBlock maxN nc s.stream = .error .streamExhausted) : Ends (decInstr four) s 3 :=
  exec_decInstr_of_error hops (cavlcDecode_of_error h)

/-- Where the block's decode comes to a table that the stream has no codeword of, it ends with CodecError when a
longest codeword would still fit, and with StreamExhausted otherwise. -/
theorem exec_decInstr_misses {σ : Type} {tbl : VlcTable σ} {u : State} (hops : s.BlockOperands four maxN nc)
    (hbook : IsCodebook tbl)
    (h : ∀ e, vlcWalk tbl u.stream = .error e → decodeBlock maxN nc s.stream = .error e) :
    u.Misses tbl (decInstr four) s 2 3 := by
  intro hnone
  have hwalk := h _ (hbook.vlcWalk_of_no_codeword (st := u.stream) hnone)
  refine ⟨fun hroom => exec_decInstr_of_miss hops (e := .tableMiss) rfl (hwalk.trans (congrArg _ (if_pos hroom))),
    fun hroom => exec_decInstr_of_exhausted hops (hwalk.trans (congrArg _ (if_neg hroom)))⟩

/-- A stream cut within the bits of a block that a longer stream completes is StreamExhausted (20 R80). -/
theorem exec_decInstr_of_cut (hops : s.BlockOperands four maxN nc) {t : State} {len : Word}
    (h : exec (decInstr four) s = .next t) (hstatus : t.status = 0) (hlen : len.toNat < t.bsPos.toNat) :
    Ends (decInstr four) { s with bsLen := len } 3 := by
  have hops' : ({ s with bsLen := len } : State).BlockOperands four maxN nc := hops
  obtain rfl : s.decodeCommand (decWrites four) (.ok ()) (fun _ => s.readBlock four maxN nc) = t :=
    Host.Outcome.next.inj ((exec_decInstr hops).symm.trans h)
  rcases s.decodeCommand_cases (decWrites four) (.ok ()) fun _ => s.readBlock four maxN nc with
    ⟨_, hc, _⟩ | ⟨_, _, _, hend⟩ | ⟨_, _, _, _, _, hend⟩ | ⟨_, u, _, hroom, hb, hend⟩
  · cases hc
  · exact absurd (hend ▸ hstatus) (s.fail_status_ne_zero _)
  · exact absurd (hend ▸ hstatus) (State.fail_status_ne_zero _ _)
  · obtain ⟨⟨d, st⟩, hd, hu⟩ := except_bind_eq_ok_iff.mp hb
    obtain ⟨n, rfl, hn⟩ := (IsReader.cavlcDecode maxN nc).takes hd
    have hn : s.Room n := hn.elim (fun h0 => h0 ▸ hroom.le) id
    have hpos : u.bsPos.toNat = s.bsPos.toNat + n := by
      rw [← Except.ok.inj hu, State.reportBlock, State.setResList_eq]
      exact hn.toNat_ofNat
    rw [hend] at hlen
    change len.toNat < u.bsPos.toNat at hlen
    rcases Nat.lt_or_ge len.toNat s.bsPos.toNat with hlow | hlow
    · obtain ⟨-, c, hc, -⟩ := hops.shape
      have hempty : ¬ len.toNat ≥ s.bsPos.toNat + 1 := by omega
      exact exec_decInstr_of_error hops' (cavlcDecode_of_no_room hc hempty)
    · obtain ⟨k, hk⟩ := Nat.exists_eq_add_of_le hlow
      have hhold : ({ s with bsLen := len } : State).stream.Holds (s.stream.bits s.stream.pos k) :=
        ⟨by rw [Stream.bits_length]; exact hk.ge, by rw [Stream.bits_length]; rfl⟩
      exact exec_decInstr_of_error hops'
        ((IsReader.cavlcDecode maxN nc).cut hd (by omega) hhold hk)

end

/-- The state with BS_POS after bits that its stream holds. -/
theorem State.past_stream {s : State} {bs : List Bool} (h : s.Holds bs) : (s.past bs).stream = s.stream.skip bs.length := by
  have hpos : (s.bsPos + BitVec.ofNat 32 bs.length).toNat = s.bsPos.toNat + bs.length := by
    have hlt := s.bsLen.isLt
    have hroom := h.1
    rw [BitVec.toNat_add, BitVec.toNat_ofNat]
    omega
  simp only [State.stream, State.past, Stream.skip, hpos]

theorem tzTable_isCodebook {s : State} {four : Bool} {maxN tc : Nat} {nc : Int} (hops : s.BlockOperands four maxN nc)
    (hpos : 0 < tc) (hlt : tc < maxN) : IsCodebook (tzTable maxN tc) := by
  obtain ⟨hmax, -⟩ := hops.shape
  rw [tzTable]
  split
  · exact (tz22_isTotalZeros tc (by omega) hpos).1
  · exact (tz4_isTotalZeros tc (by omega) hpos).1

/-- Settles O2: the reader stops at the part of the block that the stream does not hold. -/
theorem cavlcDecStops : Obligations.CavlcDecStops := by
  intro s four maxN nc hops i
  refine ⟨fun t len hexec hstatus hlen => exec_decInstr_of_cut hops hexec hstatus hlen, fun c hc => ?_,
    fun tc ones rest bs hok hmax hbits hst => ?_⟩
  · have hcls := ncClass_of_has hc
    refine ⟨exec_decInstr_misses hops (ctTable_isCodebook c) fun e he => ?_, fun tc t1 w hmem hbig hst => ?_⟩
    · rw [decodeBlock, hcls, except_ok_bind, he]
      rfl
    · refine exec_decInstr_of_miss hops (e := .codecError) rfl ?_
      rw [decodeBlock, hcls, except_ok_bind, (ctTable_isCodebook c).vlcWalk_of_holds hmem
        (State.holds_iff_stream.mp hst), except_ok_bind, decodeCoeffs, require_bind, if_neg (by simpa using hbig)]
      rfl
  have hpast := State.past_stream hst
  refine ⟨fun hlevels hzeros => ?_, fun hpos hlt hlevels => ?_⟩
  · obtain ⟨n, hn⟩ : ∃ n, ones.length + (rest.length + (n + 1)) = tc :=
      ⟨tc - (ones.length + rest.length + 1), by omega⟩
    refine exec_decInstr_of_miss hops (e := .tableMiss) rfl ?_
    have hprefix : prefixDecode (s.stream.skip bs.length) = .error .tableMiss := by
      rw [State.holds_iff_stream, hpast] at hzeros
      exact countZeros_eq_tableMiss_iff.mpr (.inr hzeros)
    rw [decodeBlock_of_head hok hbits (State.holds_iff_stream.mp hst) hn (by omega) hmax, decodeFurther, decodeLevels_succ]
    change ((((prefixDecode _).bind _).bind _).bind _).bind _ = _
    rw [hprefix]
    rfl
  have hblock := decodeBlock_of_head hok hbits (State.holds_iff_stream.mp hst) (n := 0) (by omega) hpos hmax
  have hfurther (reduced : Bool) (sL : Nat) (st : Stream) :
      decodeFurther maxN tc 0 reduced sL (ones ++ rest) st = decodeZeros maxN tc (ones ++ rest) st := by
    change decodeZeros maxN tc (ones ++ rest ++ []) st = _
    rw [List.append_nil]
  rw [hfurther] at hblock
  have htotal (st : Stream) : decodeTotalZeros maxN tc st = (vlcWalk (tzTable maxN tc) st).bind fun p =>
      (require (decide (p.1 ≤ maxN - tc)) .codecError).bind fun _ => .ok (p.1, p.2) := by
    rw [decodeTotalZeros, if_pos hlt]
    rfl
  have hbook := tzTable_isCodebook hops hpos hlt
  refine ⟨exec_decInstr_misses hops hbook fun e he => ?_, fun tz w hmem hw => ?_⟩
  · rw [hpast] at he
    rw [hblock, decodeZeros, htotal, he]
    rfl
  rw [State.holds_iff_stream, hpast] at hw
  have hwalk := hbook.vlcWalk_of_holds hmem hw
  refine ⟨fun hbig => ?_, fun htz rs rbs hrs hrbits hrst => ?_⟩
  · refine exec_decInstr_of_miss hops (e := .codecError) rfl ?_
    rw [hblock, decodeZeros, htotal, hwalk, except_ok_bind, require_bind, if_neg (by simpa using hbig)]
    rfl
  intro zl u hzl
  have hboth : s.stream.Holds (bs ++ codewordBits w) := Stream.holds_append.mpr ⟨hst, hw⟩
  have hpast₂ := State.past_stream hboth
  rw [State.holds_iff_stream, hpast₂] at hrst
  have hall : s.stream.Holds (bs ++ codewordBits w ++ rbs) := Stream.holds_append.mpr ⟨hboth, hrst⟩
  have hu : u.stream = s.stream.skip (bs ++ codewordBits w ++ rbs).length := State.past_stream hall
  obtain ⟨n, hn⟩ : ∃ n, tc - 1 = rs.length + (n + 1) := ⟨tc - 1 - (rs.length + 1), by omega⟩
  have hruns := decodeRuns_of_holds (by omega) hrbits hrst (n + 1)
  have hskip : ((s.stream.skip (bs ++ codewordBits w).length).skip rbs.length) = u.stream := by
    rw [hu, Stream.skip_skip, List.length_append (bs := rbs), Nat.add_comm]
  rw [hskip, decodeRuns_succ, if_pos hzl] at hruns
  have hfinal : decodeBlock maxN nc s.stream = ((decodeRuns (rs.length + (n + 1)) tz
      (s.stream.skip (bs ++ codewordBits w).length)).bind fun q =>
        .ok (placeLevels maxN (ones ++ rest) (q.1.1 ++ [q.1.2]), q.2)).bind fun q =>
          .ok (((tc, ones.length), q.1), q.2) := by
    rw [hblock, decodeZeros, htotal, hwalk, except_ok_bind, require_bind, if_pos (decide_eq_true htz), except_ok_bind,
      hn, Stream.skip_skip, List.length_append, codewordBits_length, Nat.add_comm w.len]
  have hrbook := rbTable_isCodebook hzl
  refine ⟨exec_decInstr_misses hops hrbook fun e he => ?_, fun r c hrmem hbig hc => ?_⟩
  · rw [hfinal, hruns, he]
    rfl
  · refine exec_decInstr_of_miss hops (e := .codecError) rfl ?_
    rw [State.holds_iff_stream] at hc
    rw [hfinal, hruns, hrbook.vlcWalk_of_holds hrmem hc, except_ok_bind, require_bind, if_neg (by simpa using hbig)]
    rfl

end Sys2Proof.Machine
end

section
/-! PROOFS. The transforms on values of bounded magnitude: every named intermediate is in range (44 R270). -/

namespace Sys2Proof.Machine

/-! ### Bounded values -/

/-- Every one of the four values is at most `B` in magnitude. -/
def Quad.Bounded (q : Quad Int) (B : Int) : Prop := ∀ k, -B ≤ q.get k ∧ q.get k ≤ B

/-- Every element of the matrix is at most `B` in magnitude. -/
def Mat.Bounded (m : Mat) (B : Int) : Prop := ∀ i j, -B ≤ m.entry i j ∧ m.entry i j ≤ B

theorem chk_ok {v : Int} (hlow : -2147483648 ≤ v) (hhigh : v ≤ 2147483647) : chk v = .ok v :=
  chk_eq_ok_iff.mpr ⟨within_eq_true_iff.mpr ⟨hlow, hhigh⟩, rfl⟩

theorem sar_one (a : Int) : sar a 1 = a / 2 := rfl

theorem Quad.Bounded.parts {q : Quad Int} {B : Int} (h : q.Bounded B) :
    (-B ≤ q.x0 ∧ q.x0 ≤ B) ∧ (-B ≤ q.x1 ∧ q.x1 ≤ B) ∧ (-B ≤ q.x2 ∧ q.x2 ≤ B) ∧ (-B ≤ q.x3 ∧ q.x3 ≤ B) :=
  ⟨h 0, h 1, h 2, h 3⟩

theorem Quad.bounded_mk {x0 x1 x2 x3 B : Int} (h0 : -B ≤ x0 ∧ x0 ≤ B) (h1 : -B ≤ x1 ∧ x1 ≤ B)
    (h2 : -B ≤ x2 ∧ x2 ≤ B) (h3 : -B ≤ x3 ∧ x3 ≤ B) : Quad.Bounded ⟨x0, x1, x2, x3⟩ B := by
  intro k
  match k with
  | 0 => exact h0
  | 1 => exact h1
  | 2 => exact h2
  | _ + 3 => exact h3

/-- A checked function that answers for values up to `B`, with a value up to `B'`. -/
def BoundsTo {α β : Type} (P : α → Prop) (f : α → Except Err β) (Q : β → Prop) : Prop :=
  ∀ x, P x → ∃ y, f x = .ok y ∧ Q y

theorem Quad.mapE_ok {α β : Type} {f : α → Except Err β} {P : α → Prop} {Q : β → Prop} (hf : BoundsTo P f Q) {q : Quad α}
    (hq : ∀ k, P (q.get k)) : ∃ r, q.mapE f = .ok r ∧ ∀ k, Q (r.get k) := by
  obtain ⟨y0, h0, b0⟩ := hf _ (hq 0)
  obtain ⟨y1, h1, b1⟩ := hf _ (hq 1)
  obtain ⟨y2, h2, b2⟩ := hf _ (hq 2)
  obtain ⟨y3, h3, b3⟩ := hf _ (hq 3)
  refine ⟨⟨y0, y1, y2, y3⟩, ?_, fun k => ?_⟩
  · simp only [Quad.get] at h0 h1 h2 h3
    simp only [Quad.mapE, h0, h1, h2, h3]
    rfl
  · match k with
    | 0 => exact b0
    | 1 => exact b1
    | 2 => exact b2
    | _ + 3 => exact b3

theorem Mat.mapE_ok {f : Int → Except Err Int} {P Q : Int → Prop} (hf : BoundsTo P f Q) {m : Mat}
    (hm : ∀ i j, P (m.entry i j)) : ∃ r, m.mapE f = .ok r ∧ ∀ i j, Q (r.entry i j) :=
  Quad.mapE_ok (P := fun q : Quad Int => ∀ j, P (q.get j)) (Q := fun r : Quad Int => ∀ j, Q (r.get j)) (fun _ hq => Quad.mapE_ok hf hq) hm

theorem Quad.zipE_ok {α β γ : Type} {f : α → β → Except Err γ} {P : α → β → Prop} {Q : γ → Prop}
    (hf : ∀ x y, P x y → ∃ z, f x y = .ok z ∧ Q z) {p : Quad α} {q : Quad β} (h : ∀ k, P (p.get k) (q.get k)) :
    ∃ r, p.zipE f q = .ok r ∧ ∀ k, Q (r.get k) := by
  obtain ⟨y0, h0, b0⟩ := hf _ _ (h 0)
  obtain ⟨y1, h1, b1⟩ := hf _ _ (h 1)
  obtain ⟨y2, h2, b2⟩ := hf _ _ (h 2)
  obtain ⟨y3, h3, b3⟩ := hf _ _ (h 3)
  refine ⟨⟨y0, y1, y2, y3⟩, ?_, fun k => ?_⟩
  · simp only [Quad.get] at h0 h1 h2 h3
    simp only [Quad.zipE, h0, h1, h2, h3]
    rfl
  · match k with
    | 0 => exact b0
    | 1 => exact b1
    | 2 => exact b2
    | _ + 3 => exact b3

theorem Mat.zipE_ok {f : Int → Int → Except Err Int} {P : Int → Int → Prop} {Q : Int → Prop}
    (hf : ∀ x y, P x y → ∃ z, f x y = .ok z ∧ Q z) {a m : Mat} (h : ∀ i j, P (a.entry i j) (m.entry i j)) :
    ∃ r, Quad.zipE (Quad.zipE f) a m = .ok r ∧ ∀ i j, Q (Mat.entry r i j) :=
  Quad.zipE_ok (P := fun p q : Quad Int => ∀ j, P (p.get j) (q.get j)) (Q := fun r : Quad Int => ∀ j, Q (r.get j))
    (fun _ _ hq => Quad.zipE_ok hf hq) h

/-- A row function applied to rows and columns, each application making values at most `n` times as large. -/
theorem Mat.rowsThenColumns_ok {f : Quad Int → Except Err (Quad Int)} {B B' B'' : Int}
    (h1 : BoundsTo (Quad.Bounded · B) f (Quad.Bounded · B')) (h2 : BoundsTo (Quad.Bounded · B') f (Quad.Bounded · B''))
    {m : Mat} (hm : m.Bounded B) : ∃ r, m.rowsThenColumns f = .ok r ∧ r.Bounded B'' := by
  obtain ⟨rows, hrows, hrowsB⟩ := Quad.mapE_ok h1 hm
  have hcolB : ∀ k, ((Mat.transpose rows).get k).Bounded B' := fun j i => by
    change -B' ≤ (Mat.transpose rows).entry j i ∧ (Mat.transpose rows).entry j i ≤ B'
    rw [Mat.transpose_entry]
    exact hrowsB i j
  obtain ⟨cols, hcols, hcolsB⟩ := Quad.mapE_ok h2 hcolB
  refine ⟨Mat.transpose cols, ?_, fun i j => ?_⟩
  · simp only [Mat.rowsThenColumns, hrows, bind, except_ok_bind, hcols]
    rfl
  · rw [Mat.transpose_entry]
    exact hcolsB j i

theorem Mat.ofFn_bounded {f : Nat → Int} {B : Int} (h : ∀ k < 16, -B ≤ f k ∧ f k ≤ B) : (Mat.ofFn f).Bounded B := by
  have hrow (a b c d : Nat) (ha : a < 16) (hb : b < 16) (hc : c < 16) (hd : d < 16) :
      Quad.Bounded ⟨f a, f b, f c, f d⟩ B := Quad.bounded_mk (h a ha) (h b hb) (h c hc) (h d hd)
  intro i j
  match i with
  | 0 => exact hrow 0 1 2 3 (by decide) (by decide) (by decide) (by decide) j
  | 1 => exact hrow 4 5 6 7 (by decide) (by decide) (by decide) (by decide) j
  | 2 => exact hrow 8 9 10 11 (by decide) (by decide) (by decide) (by decide) j
  | _ + 3 => exact hrow 12 13 14 15 (by decide) (by decide) (by decide) (by decide) j

theorem Mat.setDc_bounded {m : Mat} {B v : Int} (hm : ∀ i j, ¬ (i = 0 ∧ j = 0) → -B ≤ m.entry i j ∧ m.entry i j ≤ B)
    (hv : -B ≤ v ∧ v ≤ B) : (m.setDc v).Bounded B := by
  intro i j
  rw [Mat.setDc_entry, withDc]
  split
  · exact hv
  · next hne => exact hm i j hne

/-! ### The transforms -/

/-- The forward butterfly makes values at most 6 times as large (44 R271). -/
theorem butterfly_ok {B : Int} (hB : 6 * B ≤ 2147483647) :
    BoundsTo (Quad.Bounded · B) butterfly (Quad.Bounded · (6 * B)) := by
  intro q hq
  obtain ⟨h0, h1, h2, h3⟩ := hq.parts
  refine ⟨?value, ?answers, ?bounded⟩
  case answers =>
    simp (disch := omega) only [butterfly, chk_ok, bind, except_ok_bind, pure, Except.pure]
    rfl
  case bounded => exact Quad.bounded_mk (by omega) (by omega) (by omega) (by omega)

theorem coreFwd_ok {B : Int} (hB : 36 * B ≤ 2147483647) {x : Mat} (hx : x.Bounded B) :
    ∃ w, coreFwd x = .ok w ∧ w.Bounded (36 * B) := by
  have h0 := hx 0 0
  have hresult := Mat.rowsThenColumns_ok (butterfly_ok (B := B) (by omega)) (butterfly_ok (B := 6 * B) (by omega)) hx
  rwa [show 6 * (6 * B) = 36 * B by omega] at hresult

/-- The inverse butterfly makes values at most 4 times as large (44 R275). -/
theorem invButterfly_ok {B : Int} (hB : 4 * B ≤ 2147483647) :
    BoundsTo (Quad.Bounded · B) invButterfly (Quad.Bounded · (4 * B)) := by
  intro q hq
  obtain ⟨h0, h1, h2, h3⟩ := hq.parts
  refine ⟨?value, ?answers, ?bounded⟩
  case answers =>
    simp (disch := omega) only [invButterfly, sar_one, chk_ok, bind, except_ok_bind, pure, Except.pure]
    rfl
  case bounded => exact Quad.bounded_mk (by omega) (by omega) (by omega) (by omega)

theorem roundSample_ok {B : Int} (hB : B + 32 ≤ 2147483647) :
    BoundsTo (fun h => -B ≤ h ∧ h ≤ B) roundSample fun _ => True := by
  intro h hh
  have hsar : sar (h + 32) 6 = (h + 32) / 64 := rfl
  exact ⟨(h + 32) / 64, by
    simp (disch := omega) only [roundSample, hsar, chk_ok, bind, except_ok_bind], trivial⟩

theorem coreInv_ok {B : Int} (hB : 16 * B + 32 ≤ 2147483647) {d : Mat} (hd : d.Bounded B) : ∃ r, coreInv d = .ok r := by
  have h0 := hd 0 0
  obtain ⟨h, hh, hhB⟩ := Mat.rowsThenColumns_ok (invButterfly_ok (B := B) (by omega))
    (invButterfly_ok (B := 4 * B) (by omega)) hd
  obtain ⟨r, hr, -⟩ := Mat.mapE_ok (roundSample_ok (B := 4 * (4 * B)) (by omega)) hhB
  exact ⟨r, by simp only [coreInv, hh, bind, except_ok_bind, hr]⟩

theorem hadamard_ok {B : Int} (hB : 4 * B ≤ 2147483647) :
    BoundsTo (Quad.Bounded · B) hadamard (Quad.Bounded · (4 * B)) := by
  intro q hq
  obtain ⟨h0, h1, h2, h3⟩ := hq.parts
  refine ⟨?value, ?answers, ?bounded⟩
  case answers =>
    simp (disch := omega) only [hadamard, chk_ok, bind, except_ok_bind, pure, Except.pure]
    rfl
  case bounded => exact Quad.bounded_mk (by omega) (by omega) (by omega) (by omega)

theorem hadamard4_ok {B : Int} (hB : 16 * B ≤ 2147483647) {x : Mat} (hx : x.Bounded B) :
    ∃ y, hadamard4 x = .ok y ∧ y.Bounded (16 * B) := by
  have h0 := hx 0 0
  have hresult := Mat.rowsThenColumns_ok (hadamard_ok (B := B) (by omega)) (hadamard_ok (B := 4 * B) (by omega)) hx
  rwa [show 4 * (4 * B) = 16 * B by omega] at hresult

theorem hadamard2_ok {B : Int} (hB : 4 * B ≤ 2147483647) :
    BoundsTo (Quad.Bounded · B) hadamard2 (Quad.Bounded · (4 * B)) := by
  intro q hq
  obtain ⟨h0, h1, h2, h3⟩ := hq.parts
  refine ⟨?value, ?answers, ?bounded⟩
  case answers =>
    simp (disch := omega) only [hadamard2, chk_ok, bind, except_ok_bind, pure, Except.pure]
    rfl
  case bounded => exact Quad.bounded_mk (by omega) (by omega) (by omega) (by omega)

theorem halve_ok {B : Int} (hB : B ≤ 2147483647) :
    BoundsTo (fun v => -B ≤ v ∧ v ≤ B) (fun v => chk (sar v 1)) fun v => -B ≤ 2 * v + 1 ∧ 2 * v ≤ B := by
  intro v hv
  have hchk : chk (v / 2) = .ok (v / 2) := chk_ok (by omega) (by omega)
  exact ⟨v / 2, hchk, by omega⟩

/-! ### Quantisation and scaling -/

theorem signInt_mul_bounds {w z B : Int} (hz : 0 ≤ z) (hB : z ≤ B) : -B ≤ signInt w * z ∧ signInt w * z ≤ B := by
  rw [signInt]
  split <;> omega

/-- The quantisation of a value up to `W` by a factor up to 13107 and at least `D` (44 R273, R277). -/
theorem quantOne_ok {W D f m : Int} {n : Nat} (hD0 : 0 < D) (hD : D ≤ 2 ^ n) (hn : (2 : Int) ^ n ≤ 16777216)
    (hf : 0 ≤ f ∧ f ≤ 2 ^ n) (hm : 0 ≤ m ∧ m ≤ 13107) (hW : 13107 * W + 16777216 ≤ 2147483647) {w : Int}
    (hw : -W ≤ w ∧ w ≤ W) : ∃ z, quantOne f n m w = .ok z ∧ -(13107 * W / D + 1) ≤ z ∧ z ≤ 13107 * W / D + 1 := by
  obtain ⟨hf0, hfn⟩ := hf
  have habs : 0 ≤ absInt w ∧ absInt w ≤ W := by
    rw [absInt]
    omega
  have hprod : 0 ≤ absInt w * m ∧ absInt w * m ≤ 13107 * W := by
    refine ⟨mul_nonneg habs.1 hm.1, ?_⟩
    calc absInt w * m ≤ W * 13107 := mul_le_mul habs.2 hm.2 hm.1 (by omega)
      _ = 13107 * W := Int.mul_comm ..
  have hsar : sar (absInt w * m + f) n = (absInt w * m + f) / 2 ^ n := by
    rw [sar]
    push_cast
    rfl
  have hquot : 0 ≤ sar (absInt w * m + f) n ∧ sar (absInt w * m + f) n ≤ absInt w * m + f ∧
      sar (absInt w * m + f) n ≤ 13107 * W / D + 1 := by
    rw [hsar]
    refine ⟨Int.ediv_nonneg (by omega) (by omega), Int.ediv_le_self _ (by omega), ?_⟩
    calc (absInt w * m + f) / 2 ^ n ≤ (13107 * W + 2 ^ n) / 2 ^ n := Int.ediv_le_ediv (by omega) (by omega)
      _ = 13107 * W / 2 ^ n + 1 := Int.add_ediv_of_dvd_right (dvd_refl _) |>.trans (by rw [Int.ediv_self (by omega)])
      _ ≤ 13107 * W / D + 1 := by
        have hquot : 0 ≤ 13107 * W / 2 ^ n := Int.ediv_nonneg (by omega) (by omega)
        refine Int.add_le_add_right (Int.le_ediv_of_mul_le hD0 ?_) 1
        exact (mul_le_mul_of_nonneg_left hD hquot).trans (Int.ediv_mul_le _ (by omega))
  obtain ⟨hz0, hzself, hz⟩ := hquot
  have hsign := signInt_mul_bounds (w := w) hz0 hz
  have hsign' := signInt_mul_bounds (w := w) hz0 hzself
  refine ⟨_, ?_, hsign⟩
  simp only [quantOne, chk_ok (show -2147483648 ≤ absInt w * m by omega) (by omega), bind, except_ok_bind,
    chk_ok (show -2147483648 ≤ absInt w * m + f by omega) (by omega),
    chk_ok (show -2147483648 ≤ sar (absInt w * m + f) n by omega) (by omega)]
  exact chk_ok (by omega) (by omega)

theorem qbits_bounds {qp : Nat} (hqp : qp ≤ 51) : (32768 : Int) ≤ 2 ^ qbits qp ∧ (2 : Int) ^ qbits qp ≤ 8388608 := by
  have hq : 15 ≤ qbits qp ∧ qbits qp ≤ 23 := by
    rw [qbits]
    omega
  constructor
  · calc (32768 : Int) = 2 ^ 15 := by norm_num
      _ ≤ 2 ^ qbits qp := pow_le_pow_right₀ (by norm_num) hq.1
  · calc (2 : Int) ^ qbits qp ≤ 2 ^ 23 := pow_le_pow_right₀ (by norm_num) hq.2
      _ = 8388608 := by norm_num

theorem quantF_bounds (qb : Nat) (intra : Bool) : 0 ≤ quantF qb intra ∧ quantF qb intra ≤ 2 ^ qb := by
  have hcast : ((2 ^ qb : Nat) : Int) = 2 ^ qb := by push_cast; rfl
  rw [← hcast, quantF]
  generalize 2 ^ qb = q
  split <;> omega

/-- Beyond index 3 a matrix repeats. -/
theorem Mat.entry_min (m : Mat) (i j : Nat) : m.entry i j = m.entry (min i 3) (min j 3) := by
  have hget {α : Type} (q : Quad α) (k : Nat) : q.get k = q.get (min k 3) := by
    match k with
    | 0 => rfl
    | 1 => rfl
    | 2 => rfl
    | k + 3 =>
      rw [Nat.min_eq_right (by omega)]
      rfl
  rw [Mat.entry, Mat.entry, hget m i, hget _ j]

theorem classMat_mf_bounds (qp i j : Nat) :
    0 ≤ (classMat (mf (qp % 6))).entry i j ∧ (classMat (mf (qp % 6))).entry i j ≤ 13107 := by
  have hall : ∀ r < 6, ∀ i < 4, ∀ j < 4, 0 ≤ (classMat (mf r)).entry i j ∧ (classMat (mf r)).entry i j ≤ 13107 := by
    decide
  rw [Mat.entry_min]
  exact hall _ (Nat.mod_lt _ (by decide)) _ (by omega) _ (by omega)

theorem classMat_normAdjust_bounds (qp i j : Nat) :
    0 ≤ (classMat (normAdjust (qp % 6))).entry i j ∧ (classMat (normAdjust (qp % 6))).entry i j ≤ 29 := by
  have hall : ∀ r < 6, ∀ i < 4, ∀ j < 4,
      0 ≤ (classMat (normAdjust r)).entry i j ∧ (classMat (normAdjust r)).entry i j ≤ 29 := by decide
  rw [Mat.entry_min]
  exact hall _ (Nat.mod_lt _ (by decide)) _ (by omega) _ (by omega)

/-- The quantisation of a matrix of values up to `W` (44 R273). -/
theorem quant_ok {w : Mat} {W : Int} (hw : w.Bounded W) (hW : 13107 * W + 16777216 ≤ 2147483647) {qp : Nat}
    (hqp : qp ≤ 51) (intra : Bool) : ∃ z, quant w qp intra = .ok z ∧ z.Bounded (13107 * W / 32768 + 1) := by
  obtain ⟨hlow, hhigh⟩ := qbits_bounds hqp
  exact Mat.zipE_ok (P := fun m w => (0 ≤ m ∧ m ≤ 13107) ∧ (-W ≤ w ∧ w ≤ W))
    (Q := fun z => -(13107 * W / 32768 + 1) ≤ z ∧ z ≤ 13107 * W / 32768 + 1)
    (fun m w h => quantOne_ok (by norm_num) hlow (by omega) (quantF_bounds ..) h.1 hW h.2)
    fun i j => ⟨classMat_mf_bounds qp i j, hw i j⟩

/-- The quantisation of a DC value up to `W` (44 R277). -/
theorem dcQuantOne_ok {W : Int} (hW : 13107 * W + 16777216 ≤ 2147483647) {qp : Nat} (hqp : qp ≤ 51) (intra : Bool) :
    BoundsTo (fun y => -W ≤ y ∧ y ≤ W) (dcQuantOne qp intra)
      fun z => -(13107 * W / 65536 + 1) ≤ z ∧ z ≤ 13107 * W / 65536 + 1 := by
  intro y hy
  obtain ⟨hlow, hhigh⟩ := qbits_bounds hqp
  obtain ⟨hf0, hf⟩ := quantF_bounds (qbits qp) intra
  have hdouble : (2 : Int) ^ (qbits qp + 1) = 2 * 2 ^ qbits qp := pow_succ' ..
  have hm := classMat_mf_bounds qp 0 0
  exact quantOne_ok (by norm_num) (by omega) (by omega) (by omega) hm hW hy

/-- The factor 2^(QP div 6), and its bounds (44 R274). -/
theorem two_pow_div_six_bounds {qp : Nat} (hqp : qp ≤ 51) : (1 : Int) ≤ 2 ^ (qp / 6) ∧ (2 : Int) ^ (qp / 6) ≤ 256 := by
  constructor
  · exact one_le_pow₀ (by norm_num)
  · calc (2 : Int) ^ (qp / 6) ≤ 2 ^ 8 := pow_le_pow_right₀ (by norm_num) (by omega)
      _ = 256 := by norm_num

/-- A product of a value up to `B` and a factor up to `c`. -/
theorem mul_bounds {x y B c : Int} (hx : -B ≤ x ∧ x ≤ B) (hy : 0 ≤ y ∧ y ≤ c) : -(B * c) ≤ x * y ∧ x * y ≤ B * c := by
  obtain ⟨hx0, hx1⟩ := hx
  obtain ⟨hy0, hy1⟩ := hy
  have hB : 0 ≤ B := by omega
  constructor
  · nlinarith [mul_le_mul_of_nonneg_left hy1 hB, mul_le_mul_of_nonneg_right hx0 hy0]
  · exact mul_le_mul hx1 hy1 hy0 hB

theorem shl_eq (a : Int) (n : Nat) : shl a n = a * 2 ^ n := by
  rw [shl]
  push_cast
  rfl

theorem sar_eq (a : Int) (n : Nat) : sar a n = a / 2 ^ n := by
  rw [sar]
  push_cast
  rfl

/-- A shift right brings no value farther from 0. -/
theorem ediv_bounds {a B d : Int} (hd : 1 ≤ d) (ha : -B ≤ a ∧ a ≤ B) : -B ≤ a / d ∧ a / d ≤ B := by
  constructor
  · refine Int.le_ediv_of_mul_le (by omega) ?_
    nlinarith
  · rcases Int.lt_or_le a 0 with hneg | hpos
    · have := Int.ediv_neg_of_neg_of_pos hneg (show 0 < d by omega)
      omega
    · exact (Int.ediv_le_self d hpos).trans ha.2

theorem dequant_ok {z : Mat} {Z : Int} (hz : z.Bounded Z) (hZ : 7424 * Z ≤ 2147483647) {qp : Nat} (hqp : qp ≤ 51) :
    ∃ d, dequant z qp = .ok d ∧ d.Bounded (7424 * Z) := by
  obtain ⟨hpow, hpow'⟩ := two_pow_div_six_bounds hqp
  refine Mat.zipE_ok (P := fun v z => (0 ≤ v ∧ v ≤ 29) ∧ (-Z ≤ z ∧ z ≤ Z))
    (Q := fun d => -(7424 * Z) ≤ d ∧ d ≤ 7424 * Z) (fun v z h => ?_)
    fun i j => ⟨classMat_normAdjust_bounds qp i j, hz i j⟩
  have hprod := mul_bounds h.2 h.1
  have hshift := mul_bounds hprod (show (0 : Int) ≤ 2 ^ (qp / 6) ∧ (2 : Int) ^ (qp / 6) ≤ 256 by omega)
  have hscale : Z * 29 * 256 = 7424 * Z := by ring
  rw [hscale] at hshift
  refine ⟨_, ?_, hshift⟩
  simp only [dequantOne, chk_ok (show -2147483648 ≤ z * v by omega) (by omega), bind, except_ok_bind, shl_eq]
  exact chk_ok (by omega) (by omega)

theorem dcScale_bounds (qp : Nat) : 0 ≤ dcScale qp ∧ dcScale qp ≤ 288 := by
  have hall : ∀ r < 6, (normAdjust r).1 ≤ 18 := by decide
  have := hall (qp % 6) (Nat.mod_lt _ (by decide))
  rw [dcScale]
  omega

/-- The scaling of a luma DC value up to `F` (44 R278). -/
theorem dcInvOne4_ok {F : Int} (hF : 1152 * F + 32 ≤ 2147483647) {qp : Nat} (hqp : qp ≤ 51) :
    BoundsTo (fun f => -F ≤ f ∧ f ≤ F) (dcInvOne4 qp) fun v => -(1152 * F + 32) ≤ v ∧ v ≤ 1152 * F + 32 := by
  intro f hf
  have hprod := mul_bounds hf (dcScale_bounds qp)
  simp only [dcInvOne4, chk_ok (show -2147483648 ≤ f * dcScale qp by omega) (by omega), bind, except_ok_bind]
  by_cases hq : 36 ≤ qp
  · have hpow : (0 : Int) ≤ 2 ^ (qp / 6 - 6) ∧ (2 : Int) ^ (qp / 6 - 6) ≤ 4 := by
      refine ⟨by positivity, ?_⟩
      calc (2 : Int) ^ (qp / 6 - 6) ≤ 2 ^ 2 := pow_le_pow_right₀ (by norm_num) (by omega)
        _ = 4 := by norm_num
    have hshift := mul_bounds hprod hpow
    rw [if_pos hq, shl_eq]
    exact ⟨_, chk_ok (by omega) (by omega), by omega⟩
  · have hround : (0 : Int) ≤ 2 ^ (5 - qp / 6) ∧ (2 : Int) ^ (5 - qp / 6) ≤ 32 := by
      refine ⟨by positivity, ?_⟩
      calc (2 : Int) ^ (5 - qp / 6) ≤ 2 ^ 5 := pow_le_pow_right₀ (by norm_num) (by omega)
        _ = 32 := by norm_num
    have hsum : -(1152 * F + 32) ≤ f * dcScale qp + 1 * 2 ^ (5 - qp / 6) ∧
        f * dcScale qp + 1 * 2 ^ (5 - qp / 6) ≤ 1152 * F + 32 := by omega
    have hquot := ediv_bounds (d := 2 ^ (6 - qp / 6)) (one_le_pow₀ (by norm_num)) hsum
    rw [if_neg hq, shl_eq, chk_ok (by omega) (by omega), except_ok_bind, sar_eq]
    exact ⟨_, chk_ok (by omega) (by omega), hquot⟩

/-- The scaling of a chroma DC value up to `F` (44 R280). -/
theorem dcInvOne2_ok {F : Int} (hF : 73728 * F ≤ 2147483647) {qp : Nat} (hqp : qp ≤ 51) :
    BoundsTo (fun f => -F ≤ f ∧ f ≤ F) (dcInvOne2 qp) fun v => -(2304 * F) ≤ v ∧ v ≤ 2304 * F := by
  intro f hf
  obtain ⟨hpow, hpow'⟩ := two_pow_div_six_bounds hqp
  have hprod := mul_bounds hf (dcScale_bounds qp)
  have hshift := mul_bounds hprod (show (0 : Int) ≤ 2 ^ (qp / 6) ∧ (2 : Int) ^ (qp / 6) ≤ 256 by omega)
  have hscale : F * 288 * 256 = 73728 * F := by ring
  rw [hscale] at hshift
  have hsar : sar (f * dcScale qp * 2 ^ (qp / 6)) 5 = f * dcScale qp * 2 ^ (qp / 6) / 32 := sar_eq ..
  refine ⟨f * dcScale qp * 2 ^ (qp / 6) / 32, ?_, by omega⟩
  simp only [dcInvOne2, chk_ok (show -2147483648 ≤ f * dcScale qp by omega) (by omega), bind, except_ok_bind, shl_eq,
    chk_ok (show -2147483648 ≤ f * dcScale qp * 2 ^ (qp / 6) by omega) (by omega), hsar]
  exact chk_ok (by omega) (by omega)

/-! ### The DC transforms of matrices -/

theorem dcFwd4_ok {B : Int} (hB : 16 * B ≤ 2147483647) {w : Mat} (hw : w.Bounded B) :
    ∃ y, dcFwd4 w = .ok y ∧ y.Bounded (8 * B) := by
  obtain ⟨u, hu, huB⟩ := hadamard4_ok hB hw
  obtain ⟨y, hy, hyB⟩ := Mat.mapE_ok (halve_ok hB) huB
  refine ⟨y, by simp only [dcFwd4, hu, bind, except_ok_bind]; exact hy, fun i j => ?_⟩
  have := hyB i j
  omega

theorem dcQuant4_ok {W : Int} (hW : 13107 * W + 16777216 ≤ 2147483647) {y : Mat} (hy : y.Bounded W) {qp : Nat}
    (hqp : qp ≤ 51) (intra : Bool) : ∃ z, dcQuant4 y qp intra = .ok z ∧ z.Bounded (13107 * W / 65536 + 1) :=
  Mat.mapE_ok (dcQuantOne_ok hW hqp intra) hy

theorem dcQuant2_ok {W : Int} (hW : 13107 * W + 16777216 ≤ 2147483647) {y : Quad Int} (hy : y.Bounded W) {qp : Nat}
    (hqp : qp ≤ 51) (intra : Bool) : ∃ z, dcQuant2 y qp intra = .ok z ∧ z.Bounded (13107 * W / 65536 + 1) :=
  Quad.mapE_ok (dcQuantOne_ok hW hqp intra) hy

theorem dcInv4_ok {B : Int} (hB : 18432 * B + 32 ≤ 2147483647) {c : Mat} (hc : c.Bounded B) {qp : Nat} (hqp : qp ≤ 51) :
    ∃ r, dcInv4 c qp = .ok r ∧ r.Bounded (18432 * B + 32) := by
  have h0 := hc 0 0
  obtain ⟨f, hf, hfB⟩ := hadamard4_ok (B := B) (by omega) hc
  obtain ⟨r, hr, hrB⟩ := Mat.mapE_ok (dcInvOne4_ok (F := 16 * B) (by omega) hqp) hfB
  refine ⟨r, by simp only [dcInv4, hf, bind, except_ok_bind]; exact hr, fun i j => ?_⟩
  have := hrB i j
  omega

theorem dcInv2_ok {B : Int} (hB : 294912 * B ≤ 2147483647) {c : Quad Int} (hc : c.Bounded B) {qp : Nat} (hqp : qp ≤ 51) :
    ∃ r, dcInv2 c qp = .ok r ∧ r.Bounded (9216 * B) := by
  have h0 := hc 0
  obtain ⟨f, hf, hfB⟩ := hadamard2_ok (B := B) (by omega) c hc
  obtain ⟨r, hr, hrB⟩ := Quad.mapE_ok (dcInvOne2_ok (F := 4 * B) (by omega) hqp) hfB
  refine ⟨r, by simp only [dcInv2, hf, bind, except_ok_bind]; exact hr, fun k => ?_⟩
  have := hrB k
  omega

end Sys2Proof.Machine
end

section
/-! PROOFS. The transforms as matrix products (44 R271, R273, R277): what they answer, the range of what they answer,
and that ArithOverflow is their only error (44 R270). -/

namespace Sys2Proof.Machine

/-! ### The only error of the arithmetic (44 R270) -/

/-- The only error that the computation ends with is ArithOverflow. -/
def OnlyOverflow {α : Type} (x : Except Err α) : Prop := ∀ e, x = .error e → e = .arithOverflow

section
variable {α β γ : Type}

theorem OnlyOverflow.ok (a : α) : OnlyOverflow (.ok a) := fun _ h => by cases h

theorem OnlyOverflow.bind {x : Except Err α} {f : α → Except Err β} (hx : OnlyOverflow x)
    (hf : ∀ a, OnlyOverflow (f a)) : OnlyOverflow (x.bind f) := fun e h =>
  (except_bind_eq_error_iff.mp h).elim (hx e) fun ⟨a, _, ha⟩ => hf a e ha

theorem OnlyOverflow.chk (v : Int) : OnlyOverflow (chk v) := fun e h => by
  rw [Machine.chk] at h
  split at h <;> cases h
  rfl

theorem OnlyOverflow.ite {p : Prop} [Decidable p] {x y : Except Err α} (hx : OnlyOverflow x) (hy : OnlyOverflow y) :
    OnlyOverflow (if p then x else y) := by
  split
  · exact hx
  · exact hy

theorem OnlyOverflow.mapE {f : α → Except Err β} (hf : ∀ a, OnlyOverflow (f a)) (q : Quad α) : OnlyOverflow (q.mapE f) :=
  (hf _).bind fun _ => (hf _).bind fun _ => (hf _).bind fun _ => (hf _).bind fun _ => OnlyOverflow.ok _

theorem OnlyOverflow.zipE {f : α → β → Except Err γ} (hf : ∀ a b, OnlyOverflow (f a b)) (p : Quad α) (q : Quad β) :
    OnlyOverflow (p.zipE f q) :=
  (hf _ _).bind fun _ => (hf _ _).bind fun _ => (hf _ _).bind fun _ => (hf _ _).bind fun _ => OnlyOverflow.ok _

theorem OnlyOverflow.rowsThenColumns {f : Quad Int → Except Err (Quad Int)} (hf : ∀ q, OnlyOverflow (f q)) (m : Mat) :
    OnlyOverflow (m.rowsThenColumns f) :=
  (OnlyOverflow.mapE hf m).bind fun _ => (OnlyOverflow.mapE hf _).bind fun _ => OnlyOverflow.ok _

theorem OnlyOverflow.matMapE {f : Int → Except Err Int} (hf : ∀ v, OnlyOverflow (f v)) (m : Mat) :
    OnlyOverflow (m.mapE f) :=
  OnlyOverflow.mapE (fun _ => OnlyOverflow.mapE hf _) m

end

theorem butterfly_onlyOverflow (q : Quad Int) : OnlyOverflow (butterfly q) :=
  (OnlyOverflow.chk _).bind fun _ => (OnlyOverflow.chk _).bind fun _ => (OnlyOverflow.chk _).bind fun _ =>
    (OnlyOverflow.chk _).bind fun _ => (OnlyOverflow.chk _).bind fun _ => (OnlyOverflow.chk _).bind fun _ =>
      (OnlyOverflow.chk _).bind fun _ => (OnlyOverflow.chk _).bind fun _ => (OnlyOverflow.chk _).bind fun _ =>
        (OnlyOverflow.chk _).bind fun _ => OnlyOverflow.ok _

theorem invButterfly_onlyOverflow (q : Quad Int) : OnlyOverflow (invButterfly q) :=
  (OnlyOverflow.chk _).bind fun _ => (OnlyOverflow.chk _).bind fun _ => (OnlyOverflow.chk _).bind fun _ =>
    (OnlyOverflow.chk _).bind fun _ => (OnlyOverflow.chk _).bind fun _ => (OnlyOverflow.chk _).bind fun _ =>
      (OnlyOverflow.chk _).bind fun _ => (OnlyOverflow.chk _).bind fun _ => (OnlyOverflow.chk _).bind fun _ =>
        (OnlyOverflow.chk _).bind fun _ => OnlyOverflow.ok _

theorem hadamard_onlyOverflow (q : Quad Int) : OnlyOverflow (hadamard q) :=
  (OnlyOverflow.chk _).bind fun _ => (OnlyOverflow.chk _).bind fun _ => (OnlyOverflow.chk _).bind fun _ =>
    (OnlyOverflow.chk _).bind fun _ => OnlyOverflow.ok _

theorem hadamard2_onlyOverflow (q : Quad Int) : OnlyOverflow (hadamard2 q) :=
  (OnlyOverflow.chk _).bind fun _ => (OnlyOverflow.chk _).bind fun _ => (OnlyOverflow.chk _).bind fun _ =>
    (OnlyOverflow.chk _).bind fun _ => OnlyOverflow.ok _

theorem coreFwd_onlyOverflow (m : Mat) : OnlyOverflow (coreFwd m) := OnlyOverflow.rowsThenColumns butterfly_onlyOverflow m

theorem hadamard4_onlyOverflow (m : Mat) : OnlyOverflow (hadamard4 m) :=
  OnlyOverflow.rowsThenColumns hadamard_onlyOverflow m

theorem coreInv_onlyOverflow (m : Mat) : OnlyOverflow (coreInv m) :=
  (OnlyOverflow.rowsThenColumns invButterfly_onlyOverflow m).bind fun _ =>
    OnlyOverflow.matMapE (fun _ => (OnlyOverflow.chk _).bind fun _ => OnlyOverflow.chk _) _

theorem quantOne_onlyOverflow (f : Int) (n : Nat) (m w : Int) : OnlyOverflow (quantOne f n m w) :=
  (OnlyOverflow.chk _).bind fun _ => (OnlyOverflow.chk _).bind fun _ => (OnlyOverflow.chk _).bind fun _ =>
    OnlyOverflow.chk _

theorem quant_onlyOverflow (w : Mat) (qp : Nat) (intra : Bool) : OnlyOverflow (quant w qp intra) :=
  OnlyOverflow.zipE (fun _ _ => OnlyOverflow.zipE (fun _ _ => quantOne_onlyOverflow _ _ _ _) _ _) _ _

theorem dequant_onlyOverflow (z : Mat) (qp : Nat) : OnlyOverflow (dequant z qp) :=
  OnlyOverflow.zipE (fun _ _ => OnlyOverflow.zipE
    (fun _ _ => (OnlyOverflow.chk _).bind fun _ => OnlyOverflow.chk _) _ _) _ _

theorem dcFwd4_onlyOverflow (w : Mat) : OnlyOverflow (dcFwd4 w) :=
  (hadamard4_onlyOverflow w).bind fun _ => OnlyOverflow.matMapE (fun _ => OnlyOverflow.chk _) _

theorem dcQuant4_onlyOverflow (y : Mat) (qp : Nat) (intra : Bool) : OnlyOverflow (dcQuant4 y qp intra) :=
  OnlyOverflow.matMapE (fun _ => quantOne_onlyOverflow _ _ _ _) y

theorem dcQuant2_onlyOverflow (y : Quad Int) (qp : Nat) (intra : Bool) : OnlyOverflow (dcQuant2 y qp intra) :=
  OnlyOverflow.mapE (fun _ => quantOne_onlyOverflow _ _ _ _) y

theorem dcInvOne4_onlyOverflow (qp : Nat) (f : Int) : OnlyOverflow (dcInvOne4 qp f) :=
  (OnlyOverflow.chk _).bind fun _ => (OnlyOverflow.chk _).ite ((OnlyOverflow.chk _).bind fun _ => OnlyOverflow.chk _)

theorem dcInv4_onlyOverflow (c : Mat) (qp : Nat) : OnlyOverflow (dcInv4 c qp) :=
  (hadamard4_onlyOverflow c).bind fun _ => OnlyOverflow.matMapE (dcInvOne4_onlyOverflow qp) _

theorem dcInv2_onlyOverflow (c : Quad Int) (qp : Nat) : OnlyOverflow (dcInv2 c qp) :=
  (hadamard2_onlyOverflow c).bind fun _ => OnlyOverflow.mapE (fun _ => (OnlyOverflow.chk _).bind fun _ =>
    (OnlyOverflow.chk _).bind fun _ => OnlyOverflow.chk _) _

/-! ### What the transforms answer -/

/-- Every element is in the range of a 32-bit element. -/
def Mat.InRange (m : Mat) : Prop := ∀ i j, inInt32 (m.entry i j) = true

theorem chk_range {v u : Int} (h : chk v = .ok u) : inInt32 u = true := by
  obtain ⟨hv, rfl⟩ := chk_eq_ok_iff.mp h
  exact hv

theorem Mat.mapE_inRange {f : Int → Except Err Int} (hf : ∀ {v u}, f v = .ok u → inInt32 u = true) {m r : Mat}
    (h : m.mapE f = .ok r) : r.InRange :=
  fun i j => hf (Mat.mapE_entry h i j)

theorem Mat.rowsThenColumns_inRange {f : Quad Int → Except Err (Quad Int)}
    (hf : ∀ {q r}, f q = .ok r → ∀ k, inInt32 (Quad.get r k) = true) {m r : Mat} (h : m.rowsThenColumns f = .ok r) :
    r.InRange := by
  simp only [Mat.rowsThenColumns, bind, except_bind_eq_ok_iff, pure, Except.pure, Except.ok.injEq] at h
  obtain ⟨rows, -, cols, hcols, rfl⟩ := h
  intro i j
  rw [Mat.transpose_entry]
  exact hf (Quad.mapE_get hcols j) i

theorem butterfly_get {x y : Quad Int} (h : butterfly x = .ok y) : ∀ k < 4, y.get k = sum4 (fun b => cf k b * x.get b) := by
  simp only [butterfly, bind, chk_bind_eq_ok_iff, pure, Except.pure, Except.ok.injEq] at h
  obtain ⟨-, -, -, -, -, -, -, -, -, -, rfl⟩ := h
  intro k hk
  interval_cases k <;> simp [sum4, cf, Quad.get] <;> ring

theorem quad_inRange {x0 x1 x2 x3 : Int} (h0 : inInt32 x0 = true) (h1 : inInt32 x1 = true) (h2 : inInt32 x2 = true)
    (h3 : inInt32 x3 = true) (k : Nat) : inInt32 (Quad.get ⟨x0, x1, x2, x3⟩ k) = true := by
  match k with
  | 0 => exact h0
  | 1 => exact h1
  | 2 => exact h2
  | _ + 3 => exact h3

theorem butterfly_range {x y : Quad Int} (h : butterfly x = .ok y) (k : Nat) : inInt32 (y.get k) = true := by
  simp only [butterfly, bind, chk_bind_eq_ok_iff, pure, Except.pure, Except.ok.injEq] at h
  obtain ⟨-, -, -, -, h0, -, h1, h2, -, h3, rfl⟩ := h
  exact quad_inRange h0 h1 h2 h3 k

theorem hadamard_range {x y : Quad Int} (h : hadamard x = .ok y) (k : Nat) : inInt32 (y.get k) = true := by
  simp only [hadamard, bind, chk_bind_eq_ok_iff, pure, Except.pure, Except.ok.injEq] at h
  obtain ⟨h0, h1, h2, h3, rfl⟩ := h
  exact quad_inRange h0 h1 h2 h3 k

theorem hadamard2_range {x y : Quad Int} (h : hadamard2 x = .ok y) (k : Nat) : inInt32 (y.get k) = true := by
  simp only [hadamard2, bind, chk_bind_eq_ok_iff, pure, Except.pure, Except.ok.injEq] at h
  obtain ⟨h0, h1, h2, h3, rfl⟩ := h
  exact quad_inRange h0 h1 h2 h3 k

theorem coreFwd_entry {x y : Mat} (h : coreFwd x = .ok y) {i j : Nat} (hi : i < 4) (hj : j < 4) :
    y.entry i j = sandwich cf x.entry i j := by
  rw [Mat.rowsThenColumns_entry (F := fun d k => sum4 fun b => cf k b * d b) butterfly_get h hi hj,
    sum4_sum4_eq_sandwich]

theorem coreFwd_inRange {x y : Mat} (h : coreFwd x = .ok y) : y.InRange := Mat.rowsThenColumns_inRange butterfly_range h

theorem hadamard4_inRange {x y : Mat} (h : hadamard4 x = .ok y) : y.InRange :=
  Mat.rowsThenColumns_inRange hadamard_range h

theorem Mat.setDc_inRange {m : Mat} (h : m.InRange) {v : Int} (hv : inInt32 v = true) : (m.setDc v).InRange := by
  intro i j
  rw [Mat.setDc_entry, withDc]
  split
  · exact hv
  · exact h i j

theorem classMat_mf_entry : ∀ r < 6, ∀ i < 4, ∀ j < 4, (classMat (mf r)).entry i j = mfTable r (posClass i j) := by decide

theorem mf_fst : ∀ r < 6, ((mf r).1 : Int) = mfTable r 0 := by decide

theorem quantF_eq (qp : Nat) (intra : Bool) : quantF (qbits qp) intra = roundOffset qp intra := by
  cases intra <;> simp [quantF, roundOffset, qbits]

theorem quantOne_eq_ok {f m w z : Int} {n : Nat} (h : quantOne f n m w = .ok z) :
    inInt32 z = true ∧ z = signInt w * ((absInt w * m + f) / 2 ^ n) := by
  simp only [quantOne, bind, chk_bind_eq_ok_iff, chk_eq_ok_iff] at h
  obtain ⟨-, -, -, hrange, rfl⟩ := h
  refine ⟨hrange, ?_⟩
  rw [sar]
  push_cast
  rfl

theorem quant_entry {w z : Mat} {qp : Nat} {intra : Bool} (h : quant w qp intra = .ok z) {i j : Nat} (hi : i < 4)
    (hj : j < 4) : z.entry i j = quantSpec qp intra i j (w.entry i j) := by
  have hclass : ((classMat (mf (qp % 6))).get i).get j = mfTable (qp % 6) (posClass i j) :=
    classMat_mf_entry (qp % 6) (Nat.mod_lt _ (by decide)) i hi j hj
  obtain ⟨-, hval⟩ := quantOne_eq_ok (Quad.zipE_get (Quad.zipE_get h i) j)
  rw [hclass, quantF_eq] at hval
  exact hval

theorem quant_inRange {w z : Mat} {qp : Nat} {intra : Bool} (h : quant w qp intra = .ok z) : z.InRange := by
  intro i j
  exact (quantOne_eq_ok (Quad.zipE_get (Quad.zipE_get h i) j)).1

theorem dcQuantOne_eq_ok {qp : Nat} {intra : Bool} {y z : Int} (h : dcQuantOne qp intra y = .ok z) :
    inInt32 z = true ∧ z = dcQuantSpec qp intra y := by
  obtain ⟨hrange, hval⟩ := quantOne_eq_ok h
  rw [quantF_eq, mf_fst _ (Nat.mod_lt _ (by decide))] at hval
  exact ⟨hrange, hval⟩

theorem dcFwd4_entry {w y : Mat} (h : dcFwd4 w = .ok y) {i j : Nat} (hi : i < 4) (hj : j < 4) :
    y.entry i j = sandwich hMat w.entry i j / 2 := by
  obtain ⟨u, hu, hy⟩ := except_bind_eq_ok_iff.mp h
  obtain ⟨-, hval⟩ := chk_eq_ok_iff.mp (Mat.mapE_entry hy i j)
  rw [hval, sar_one, hadamard4_entry hu hi hj]

theorem dcFwd4_inRange {w y : Mat} (h : dcFwd4 w = .ok y) : y.InRange := by
  obtain ⟨u, -, hy⟩ := except_bind_eq_ok_iff.mp h
  exact Mat.mapE_inRange chk_range hy

theorem dcInvOne4_range {qp : Nat} {f v : Int} (h : dcInvOne4 qp f = .ok v) : inInt32 v = true := by
  simp only [dcInvOne4, bind, chk_bind_eq_ok_iff] at h
  obtain ⟨-, h⟩ := h
  by_cases hqp : 36 ≤ qp
  · rw [if_pos hqp] at h
    exact chk_range h
  · rw [if_neg hqp, chk_bind_eq_ok_iff] at h
    exact chk_range h.2

theorem dcInvOne2_range {qp : Nat} {f v : Int} (h : dcInvOne2 qp f = .ok v) : inInt32 v = true := by
  simp only [dcInvOne2, bind, chk_bind_eq_ok_iff] at h
  exact chk_range h.2.2

/-! ### A matrix in a buffer -/

theorem mat4_toVec {m : Mat} (h : m.InRange) {i j : Nat} (hi : i < 4) (hj : j < 4) : mat4 m.toVec i j = m.entry i j := by
  rw [mat4, Mat.toVec, vecInt_vec16 _ _ (by omega), Mat.toList_getD m hi hj]
  exact toInt_toWord (h i j)

theorem Mat.toList_eq_map (m : Mat) : m.toList = (List.range 16).map fun k => m.entry (k / 4) (k % 4) := rfl

theorem countNonzero_map (f : Nat → Int) (n : Nat) :
    countNonzero ((List.range n).map f) = ((List.range n).filter fun k => decide (f k ≠ 0)).length := by
  rw [countNonzero, List.filter_map, List.length_map]
  rfl

theorem countNonzero_mat {m : Mat} {z : Nat → Nat → Int} (h : ∀ i < 4, ∀ j < 4, m.entry i j = z i j) :
    countNonzero m.toList = ((List.range 16).filter fun k => decide (z (k / 4) (k % 4) ≠ 0)).length := by
  rw [Mat.toList_eq_map, countNonzero_map]
  refine congrArg _ (List.filter_congr fun k hk => ?_)
  have hlt := List.mem_range.mp hk
  rw [h (k / 4) (by omega) (k % 4) (by omega)]

theorem countNonzero_quad {q : Quad Int} {z : Nat → Int} (h : ∀ k < 4, q.get k = z k) :
    countNonzero q.toList = ((List.range 4).filter fun k => decide (z k ≠ 0)).length := by
  have hlist : q.toList = (List.range 4).map q.get := rfl
  rw [hlist, countNonzero_map]
  exact congrArg _ (List.filter_congr fun k hk => by rw [h k (List.mem_range.mp hk)])

end Sys2Proof.Machine
end

section
/-! PROOFS. The transform commands (44 R290 to R295). -/

namespace Sys2Proof.Machine

/-! ### The flag word and the QP (44 R290 to R295) -/

theorem onlyFlags_eq_true_iff {w : Word} {named : List Nat} :
    onlyFlags w named = true ↔ ∀ k < 32, w.getLsbD k = true → k ∈ named := by
  rw [onlyFlags, List.all_eq_true]
  constructor
  · intro h k hk hbit
    have hall := h k (List.mem_range.mpr hk)
    rw [hbit, Bool.not_true, Bool.or_false, List.contains_iff_mem] at hall
    exact hall
  · intro h k hk
    cases hbit : w.getLsbD k with
    | false => simp
    | true => simpa using h k (List.mem_range.mp hk) hbit

/-- A word below 2^n has no bit from n on. -/
theorem toNat_lt_two_pow_iff {w : Word} {n : Nat} : w.toNat < 2 ^ n ↔ ∀ k < 32, w.getLsbD k = true → k < n := by
  constructor
  · intro h k _ hbit
    by_contra hk
    have hfalse := Nat.testBit_lt_two_pow (Nat.lt_of_lt_of_le h (Nat.pow_le_pow_right Nat.two_pos (Nat.le_of_not_lt hk)))
    rw [BitVec.getLsbD, hfalse] at hbit
    cases hbit
  · intro h
    refine Nat.lt_pow_two_of_testBit _ fun k hk => ?_
    rw [BitVec.testBit_toNat, Bool.eq_false_iff]
    intro hbit
    have hlt : k < 32 := by
      by_contra hge
      rw [BitVec.getLsbD_of_ge _ _ (Nat.le_of_not_lt hge)] at hbit
      cases hbit
    exact absurd (h k hlt hbit) (Nat.not_lt.mpr hk)

theorem onlyFlags_012 {w : Word} : onlyFlags w [0, 1, 2] = true ↔ w.toNat < 8 := by
  rw [show 8 = 2 ^ 3 from rfl, toNat_lt_two_pow_iff, onlyFlags_eq_true_iff]
  have hmem (k : Nat) : k ∈ [0, 1, 2] ↔ k < 3 := by
    simp only [List.mem_cons, List.not_mem_nil, or_false]
    omega
  simp only [hmem]

theorem onlyFlags_01 {w : Word} : onlyFlags w [0, 1] = true ↔ w.toNat < 4 := by
  rw [show 4 = 2 ^ 2 from rfl, toNat_lt_two_pow_iff, onlyFlags_eq_true_iff]
  have hmem (k : Nat) : k ∈ [0, 1] ↔ k < 2 := by
    simp only [List.mem_cons, List.not_mem_nil, or_false]
    omega
  simp only [hmem]

theorem onlyFlags_0 {w : Word} : onlyFlags w [0] = true ↔ w.toNat < 2 := by
  rw [show 2 = 2 ^ 1 from rfl, toNat_lt_two_pow_iff, onlyFlags_eq_true_iff]
  have hmem (k : Nat) : k ∈ [0] ↔ k < 1 := by
    simp only [List.mem_cons, List.not_mem_nil, or_false]
    omega
  simp only [hmem]

theorem onlyFlags_02 {w : Word} : onlyFlags w [0, 2] = true ↔ w.toNat ∈ [0, 1, 4, 5] := by
  have hsplit : onlyFlags w [0, 2] = true ↔ w.toNat < 8 ∧ w.toNat.testBit 1 = false := by
    rw [show 8 = 2 ^ 3 from rfl, toNat_lt_two_pow_iff, onlyFlags_eq_true_iff]
    constructor
    · intro h
      refine ⟨fun k hk hbit => ?_, Bool.eq_false_iff.mpr fun hbit => ?_⟩
      · have := h k hk hbit
        simp only [List.mem_cons, List.not_mem_nil, or_false] at this
        omega
      · exact absurd (h 1 (by decide) hbit) (by decide)
    · rintro ⟨h, h1⟩ k hk hbit
      have hlt := h k hk hbit
      have hne : k ≠ 1 := by
        rintro rfl
        rw [BitVec.getLsbD, h1] at hbit
        cases hbit
      simp only [List.mem_cons, List.not_mem_nil, or_false]
      omega
  rw [hsplit]
  have hall : ∀ n < 8, n.testBit 1 = false ↔ n ∈ [0, 1, 4, 5] := by decide
  constructor
  · rintro ⟨hlt, hbit⟩
    exact (hall _ hlt).mp hbit
  · intro hmem
    have hlt : w.toNat < 8 := by
      simp only [List.mem_cons, List.not_mem_nil, or_false] at hmem
      omega
    exact ⟨hlt, (hall _ hlt).mpr hmem⟩

/-- With Q set ARG1 is a QP. -/
def State.QpOk (s : State) : Prop := s.argFlag 0 0 = true → 0 ≤ s.argInt 1 ∧ s.argInt 1 ≤ 51

theorem flagCheck_ok {s : State} {named : List Nat} (hflags : onlyFlags (s.getArg 0) named = true) (hqp : s.QpOk) :
    flagCheck s named = .ok () := by
  change (require _ _).bind (fun _ => require _ _) = _
  rw [hflags, require_bind, if_pos rfl, require_eq, if_pos]
  cases hQ : s.argFlag 0 0 with
  | false => rfl
  | true => exact isQp_eq_true_iff.mpr (hqp hQ)

theorem flagCheck_error {s : State} {named : List Nat}
    (h : ¬ onlyFlags (s.getArg 0) named = true ∨ s.argFlag 0 0 = true ∧ (s.argInt 1 < 0 ∨ 51 < s.argInt 1)) :
    flagCheck s named = .error .badOperand := by
  change (require _ _).bind (fun _ => require _ _) = _
  rw [require_bind]
  by_cases hflags : onlyFlags (s.getArg 0) named = true
  · obtain ⟨hQ, hqp⟩ := h.resolve_left (not_not_intro hflags)
    have hbad : ¬ isQp (s.argInt 1) = true := by
      rw [isQp_eq_true_iff]
      omega
    rw [if_pos hflags, hQ, Bool.not_true, Bool.false_or, require_eq, if_neg hbad]
  · rw [if_neg hflags]

/-! ### The shape of a transform command -/

/-- A transform command: its checks, its arithmetic and the state that takes its result. -/
def State.transformCommand {α : Type} (s : State) (named : List Nat) (x : Except Err α) (f : α → State) : State :=
  s.cleanCommand ((flagCheck s named).bind fun _ => x.bind fun a => .ok (f a))

section
variable {α : Type} {s : State} {named : List Nat} {x : Except Err α} {f : α → State}

theorem State.transformCommand_of_check_error
    (h : ¬ onlyFlags (s.getArg 0) named = true ∨ s.argFlag 0 0 = true ∧ (s.argInt 1 < 0 ∨ 51 < s.argInt 1)) :
    s.transformCommand named x f = s.endsClean 5 := by
  rw [State.transformCommand, flagCheck_error h]
  exact s.fail_eq_endsClean .badOperand

theorem State.transformCommand_of_ok (hflags : onlyFlags (s.getArg 0) named = true) (hqp : s.QpOk) {a : α}
    (h : x = .ok a) : s.transformCommand named x f = (f a).succeed := by
  rw [State.transformCommand, flagCheck_ok hflags hqp, h]
  rfl

/-- The command completes with its result, or ends with ArithOverflow and changes nothing else. -/
theorem State.transformCommand_cases (hflags : onlyFlags (s.getArg 0) named = true) (hqp : s.QpOk)
    (hx : OnlyOverflow x) : (∃ a, x = .ok a ∧ s.transformCommand named x f = (f a).succeed) ∨
      s.transformCommand named x f = s.endsClean 7 := by
  cases h : x with
  | ok a => exact .inl ⟨a, rfl, State.transformCommand_of_ok hflags hqp rfl⟩
  | error e =>
    obtain rfl := hx e h
    right
    rw [State.transformCommand, flagCheck_ok hflags hqp]
    exact s.fail_eq_endsClean .arithOverflow

/-- A command that has what it promises for every result, and a result where it promises one. -/
theorem State.transformCommand_done {P : State → Prop} {out : Host.Outcome State Fault Refusal} {bound : Prop}
    (hout : out = .next (s.transformCommand named x f)) (hflags : onlyFlags (s.getArg 0) named = true) (hqp : s.QpOk)
    (hx : OnlyOverflow x) (hP : ∀ a, x = .ok a → P (f a).succeed) (hbound : bound → ∃ a, x = .ok a) :
    ((∃ t, out = .next t ∧ P t) ∨ out = .next (s.endsClean 7)) ∧ (bound → ∃ t, out = .next t ∧ P t) := by
  constructor
  · rcases State.transformCommand_cases (f := f) hflags hqp hx with ⟨a, ha, hend⟩ | hend
    · exact .inl ⟨_, hout.trans (congrArg _ hend), hP a ha⟩
    · exact .inr (hout.trans (congrArg _ hend))
  · intro hb
    obtain ⟨a, ha⟩ := hbound hb
    exact ⟨_, hout.trans (congrArg _ (State.transformCommand_of_ok hflags hqp ha)), hP a ha⟩

end

/-- The QP that the arithmetic uses is in range. -/
theorem State.QpOk.qpArg_le {s : State} (h : s.QpOk) (hQ : s.argFlag 0 0 = true) : s.qpArg ≤ 51 := by
  have := h hQ
  rw [State.qpArg]
  omega

theorem mat4_bounded {v : Vec16} {B : Nat} (h : ∀ k < 16, (vecInt v k).natAbs ≤ B) : (Mat.ofVec v).Bounded B :=
  Mat.ofFn_bounded fun k hk => by
    have := h k hk
    omega

/-! ### FWD4 (44 R290) -/

/-- FWD4's coefficients from the core transform `w` (44 R290). -/
def fwd4Quantised (s : State) (w : Mat) : Except Err Mat :=
  let w' := if s.argFlag 0 1 then w.setDc 0 else w
  if s.argFlag 0 0 then quant w' s.qpArg (s.argFlag 0 2) else .ok w'

theorem fwd4Result_eq (s : State) : fwd4Result s =
    (coreFwd (Mat.ofVec s.tb)).bind fun w => (fwd4Quantised s w).bind fun z => .ok (w.dc, z) := by
  refine congrArg _ (funext fun w => ?_)
  simp only [fwd4Quantised]
  split <;> rfl

theorem fwd4Result_onlyOverflow (s : State) : OnlyOverflow (fwd4Result s) := by
  rw [fwd4Result_eq]
  exact (coreFwd_onlyOverflow _).bind fun w =>
    (OnlyOverflow.ite (quant_onlyOverflow _ _ _) (OnlyOverflow.ok _)).bind fun _ => OnlyOverflow.ok _

/-- The state that takes FWD4's result. -/
def State.takeFwd4 (s : State) (r : Int × Mat) : State :=
  { s with cb := r.2.toVec }.setResList 0 [r.1, (countNonzero r.2.toList : Int)]

theorem exec_fwd4 (s : State) :
    exec .fwd4 s = .next (s.transformCommand [0, 1, 2] (fwd4Result s) s.takeFwd4) := by
  change Host.Outcome.next (s.cleanCommand ((flagCheck s _).bind fun _ => (fwd4Result s).bind _)) = _
  rfl

/-- FWD4's coefficients as the rules give them (44 R290). -/
def fwd4Spec (s : State) (i j : Nat) : Int :=
  let w := sandwich cf (mat4 s.tb)
  let w' := if s.argFlag 0 1 then withDc w 0 else w
  if s.argFlag 0 0 then quantSpec (s.argInt 1).toNat (s.argFlag 0 2) i j (w' i j) else w' i j

theorem fwd4Result_entry {s : State} {r : Int × Mat} (h : fwd4Result s = .ok r) :
    r.1 = sandwich cf (mat4 s.tb) 0 0 ∧ r.2.InRange ∧ ∀ i < 4, ∀ j < 4, r.2.entry i j = fwd4Spec s i j := by
  rw [fwd4Result_eq] at h
  obtain ⟨w, hw, hrest⟩ := except_bind_eq_ok_iff.mp h
  obtain ⟨z, hz, hr⟩ := except_bind_eq_ok_iff.mp hrest
  cases hr
  have hcore : ∀ i < 4, ∀ j < 4, w.entry i j = sandwich cf (mat4 s.tb) i j := fun i hi j hj => by
    rw [coreFwd_entry hw hi hj]
    exact sandwich_congr cf (fun i hi j hj => Mat.ofVec_entry s.tb hi hj) i j
  have hrange : (if s.argFlag 0 1 = true then w.setDc 0 else w).InRange := by
    split
    · exact Mat.setDc_inRange (coreFwd_inRange hw) (by decide)
    · exact coreFwd_inRange hw
  have hcut : ∀ i < 4, ∀ j < 4, (if s.argFlag 0 1 = true then w.setDc 0 else w).entry i j =
      (if s.argFlag 0 1 = true then withDc (sandwich cf (mat4 s.tb)) 0 else sandwich cf (mat4 s.tb)) i j := by
    intro i hi j hj
    split
    · rw [Mat.setDc_entry, withDc, withDc, hcore i hi j hj]
    · exact hcore i hi j hj
  refine ⟨hcore 0 (by decide) 0 (by decide), ?_⟩
  rw [fwd4Quantised] at hz
  by_cases hQ : s.argFlag 0 0 = true
  · simp only [if_pos hQ] at hz
    refine ⟨quant_inRange hz, fun i hi j hj => ?_⟩
    simp only [quant_entry hz hi hj, hcut i hi j hj, fwd4Spec, if_pos hQ, State.qpArg]
  · simp only [if_neg hQ] at hz
    cases hz
    refine ⟨hrange, fun i hi j hj => ?_⟩
    simp only [hcut i hi j hj, fwd4Spec, if_neg hQ]

theorem fwd4Result_ok {s : State} (hqp : s.QpOk) (h : ∀ k < 16, (vecInt s.tb k).natAbs ≤ 4096) :
    ∃ r, fwd4Result s = .ok r := by
  obtain ⟨w, hw, hwB⟩ := coreFwd_ok (B := 4096) (by norm_num) (mat4_bounded h)
  have hcut : (if s.argFlag 0 1 = true then w.setDc 0 else w).Bounded (36 * 4096) := by
    split
    · exact Mat.setDc_bounded (fun i j _ => hwB i j) (by norm_num)
    · exact hwB
  have hz : ∃ z, fwd4Quantised s w = .ok z := by
    rw [fwd4Quantised]
    by_cases hQ : s.argFlag 0 0 = true
    · obtain ⟨z, hz, -⟩ := quant_ok hcut (by norm_num) (hqp.qpArg_le hQ) (s.argFlag 0 2)
      exact ⟨z, (if_pos hQ).trans hz⟩
    · exact ⟨_, if_neg hQ⟩
  obtain ⟨z, hz⟩ := hz
  exact ⟨(w.dc, z), by rw [fwd4Result_eq, hw, except_ok_bind, hz, except_ok_bind]⟩

/-- Settles O36, element by element of the core transform and its quantisation. -/
theorem fwd4Transforms : Obligations.Fwd4Transforms := by
  refine fun s => ⟨fun hbad => ?_, fun hflags hqp => ?_⟩
  · rw [exec_fwd4, State.transformCommand_of_check_error]
    rwa [onlyFlags_012, Nat.not_lt]
  · refine State.transformCommand_done (exec_fwd4 s) (onlyFlags_012.mpr hflags) hqp (fwd4Result_onlyOverflow s)
      (fun r hr => ?_) (fwd4Result_ok hqp)
    obtain ⟨hdc, hrange, hentry⟩ := fwd4Result_entry hr
    refine ⟨?_, fun i hi j hj => ?_, ?_⟩
    · rw [State.succeed_eq, State.takeFwd4, State.setResList_eq]
    · rw [State.succeed_eq, State.takeFwd4, State.setResList_eq]
      exact (mat4_toVec hrange hi hj).trans (hentry i hi j hj)
    · rw [State.takeFwd4, hdc, countNonzero_mat hentry]
      exact State.results_setResList _ fun _ => rfl

/-! ### INV4 (44 R291) -/

/-- What INV4 dequantises: CB, without element 0 where DCI replaces it (44 R291; log 13). -/
def inv4Input (s : State) : Mat := if s.argFlag 0 1 then (Mat.ofVec s.cb).setDc 0 else Mat.ofVec s.cb

/-- INV4's dequantisation (44 R291). -/
def inv4Dequantised (s : State) : Except Err Mat :=
  if s.argFlag 0 0 then dequant (inv4Input s) s.qpArg else .ok (inv4Input s)

theorem inv4Result_eq (s : State) : inv4Result s =
    (inv4Dequantised s).bind fun d => coreInv (if s.argFlag 0 1 then d.setDc (s.argInt 2) else d) := by
  simp only [inv4Result, inv4Dequantised, inv4Input]
  split <;> rfl

theorem inv4Result_onlyOverflow (s : State) : OnlyOverflow (inv4Result s) := by
  rw [inv4Result_eq]
  exact (OnlyOverflow.ite (dequant_onlyOverflow _ _) (OnlyOverflow.ok _)).bind fun _ => coreInv_onlyOverflow _

theorem exec_inv4 (s : State) :
    exec .inv4 s = .next (s.transformCommand [0, 1] (inv4Result s) fun r => { s with tb := r.toVec }) := rfl

/-- INV4's coefficients before the inverse transform (44 R291). -/
def inv4Spec (s : State) : Nat → Nat → Int :=
  let d := fun i j => if s.argFlag 0 0 then dequantSpec (s.argInt 1).toNat i j (mat4 s.cb i j) else mat4 s.cb i j
  if s.argFlag 0 1 then withDc d (s.argInt 2) else d

theorem inv4Result_entry {s : State} {r : Mat} (h : inv4Result s = .ok r) :
    r.InRange ∧ ∀ i < 4, ∀ j < 4, r.entry i j = coreInvSpec (inv4Spec s) i j := by
  rw [inv4Result_eq] at h
  obtain ⟨d, hd, hr⟩ := except_bind_eq_ok_iff.mp h
  have hinput : ∀ i < 4, ∀ j < 4, ¬ (s.argFlag 0 1 = true ∧ i = 0 ∧ j = 0) →
      (inv4Input s).entry i j = mat4 s.cb i j := by
    intro i hi j hj hne
    rw [inv4Input]
    split
    · next hI =>
      rw [Mat.setDc_entry, withDc, if_neg fun h00 => hne ⟨hI, h00⟩, Mat.ofVec_entry _ hi hj]
    · exact Mat.ofVec_entry _ hi hj
  have hdequant : ∀ i < 4, ∀ j < 4, ¬ (s.argFlag 0 1 = true ∧ i = 0 ∧ j = 0) → d.entry i j =
      if s.argFlag 0 0 = true then dequantSpec (s.argInt 1).toNat i j (mat4 s.cb i j) else mat4 s.cb i j := by
    intro i hi j hj hne
    rw [inv4Dequantised] at hd
    split
    · next hQ =>
      rw [if_pos hQ] at hd
      rw [dequant_entry hd hi hj, hinput i hi j hj hne, State.qpArg]
    · next hQ =>
      rw [if_neg hQ] at hd
      cases hd
      exact hinput i hi j hj hne
  refine ⟨?_, fun i hi j hj => ?_⟩
  · obtain ⟨y, -, hy⟩ := except_bind_eq_ok_iff.mp hr
    exact Mat.mapE_inRange (fun h => (roundSample_eq_ok h).1) hy
  · rw [(coreInv_entry hr hi hj).2]
    refine coreInvSpec_congr (fun i hi j hj => ?_) i j
    rw [inv4Spec]
    by_cases hI : s.argFlag 0 1 = true
    · simp only [if_pos hI, Mat.setDc_entry, withDc]
      split
      · rfl
      · next hne => exact hdequant i hi j hj fun h => hne h.2
    · simp only [if_neg hI]
      exact hdequant i hi j hj fun h => hI h.1

theorem inv4Result_ok {s : State} (hqp : s.QpOk)
    (h : (∀ k < 16, (k = 0 ∧ s.argFlag 0 1 = true) ∨ (vecInt s.cb k).natAbs ≤ 2 ^ 13))
    (hdc : s.argFlag 0 1 = true → (s.argInt 2).natAbs ≤ 2 ^ 26) : ∃ r, inv4Result s = .ok r := by
  have h13 : (2 : Nat) ^ 13 = 8192 := by norm_num
  have h26 : (2 : Nat) ^ 26 = 67108864 := by norm_num
  rw [h13] at h
  rw [h26] at hdc
  have hinput : (inv4Input s).Bounded 8192 := by
    rw [inv4Input]
    by_cases hI : s.argFlag 0 1 = true
    · rw [if_pos hI]
      have hsame : (Mat.ofVec s.cb).setDc 0 = (Mat.ofFn fun k => if k = 0 then 0 else vecInt s.cb k) := rfl
      rw [hsame]
      refine Mat.ofFn_bounded fun k hk => ?_
      have := h k hk
      split <;> omega
    · rw [if_neg hI]
      refine mat4_bounded (B := 8192) fun k hk => (h k hk).resolve_left fun hI' => hI hI'.2
  have hd : ∃ d, inv4Dequantised s = .ok d ∧ d.Bounded 67108864 := by
    rw [inv4Dequantised]
    by_cases hQ : s.argFlag 0 0 = true
    · obtain ⟨d, hd, hdB⟩ := dequant_ok hinput (by norm_num) (hqp.qpArg_le hQ)
      refine ⟨d, (if_pos hQ).trans hd, fun i j => ?_⟩
      have := hdB i j
      omega
    · refine ⟨_, if_neg hQ, fun i j => ?_⟩
      have := hinput i j
      omega
  obtain ⟨d, hd, hdB⟩ := hd
  have hcut : (if s.argFlag 0 1 = true then d.setDc (s.argInt 2) else d).Bounded 67108864 := by
    split
    · next hI =>
      have := hdc hI
      exact Mat.setDc_bounded (fun i j _ => hdB i j) (by omega)
    · exact hdB
  obtain ⟨r, hr⟩ := coreInv_ok (by norm_num) hcut
  exact ⟨r, by rw [inv4Result_eq, hd, except_ok_bind, hr]⟩

/-- Settles O37, element by element of the dequantised coefficients and the inverse transform. -/
theorem inv4Transforms : Obligations.Inv4Transforms := by
  refine fun s => ⟨fun hbad => ?_, fun hflags hqp => ?_⟩
  · rw [exec_inv4, State.transformCommand_of_check_error]
    rwa [onlyFlags_01, Nat.not_lt]
  · have hdone := State.transformCommand_done
      (P := fun t => t = { s with tb := t.tb, status := 0 } ∧
        ∀ i < 4, ∀ j < 4, mat4 t.tb i j = coreInvSpec (inv4Spec s) i j)
      (bound := (∀ k < 16, (k = 0 ∧ s.argFlag 0 1 = true) ∨ (vecInt s.cb k).natAbs ≤ 2 ^ 13) ∧
        (s.argFlag 0 1 = true → (s.argInt 2).natAbs ≤ 2 ^ 26))
      (exec_inv4 s) (onlyFlags_01.mpr hflags) hqp (inv4Result_onlyOverflow s) (fun r hr => by
        obtain ⟨hrange, hentry⟩ := inv4Result_entry hr
        exact ⟨rfl, fun i hi j hj => (mat4_toVec hrange hi hj).trans (hentry i hi j hj)⟩)
      fun h => inv4Result_ok hqp h.1 h.2
    exact ⟨hdone.1, fun h hdc => hdone.2 ⟨h, hdc⟩⟩

/-! ### FWD_DC4 and INV_DC4 (44 R292, R293) -/

theorem fwdDc4Result_eq (s : State) : fwdDc4Result s = (dcFwd4 (Mat.ofVec s.dcb)).bind fun y =>
    if s.argFlag 0 0 then dcQuant4 y s.qpArg (s.argFlag 0 2) else .ok y := rfl

theorem fwdDc4Result_onlyOverflow (s : State) : OnlyOverflow (fwdDc4Result s) :=
  (dcFwd4_onlyOverflow _).bind fun y =>
    (OnlyOverflow.ite (dcQuant4_onlyOverflow y s.qpArg (s.argFlag 0 2)) (OnlyOverflow.ok y))

/-- The state that takes FWD_DC4's result. -/
def State.takeFwdDc4 (s : State) (z : Mat) : State :=
  { s with dcb := z.toVec }.setResInt 1 (countNonzero z.toList)

theorem exec_fwdDc4 (s : State) :
    exec .fwdDc4 s = .next (s.transformCommand [0, 2] (fwdDc4Result s) s.takeFwdDc4) := rfl

/-- FWD_DC4's values as the rules give them (44 R292). -/
def fwdDc4Spec (s : State) (i j : Nat) : Int :=
  let y := fun i j => sandwich hMat (mat4 s.dcb) i j / 2
  if s.argFlag 0 0 then dcQuantSpec (s.argInt 1).toNat (s.argFlag 0 2) (y i j) else y i j

theorem sandwich_ofVec (t : Nat → Nat → Int) (v : Vec16) (i j : Nat) :
    sandwich t (Mat.ofVec v).entry i j = sandwich t (mat4 v) i j :=
  sandwich_congr t (fun _ hi _ hj => Mat.ofVec_entry v hi hj) i j

theorem fwdDc4Result_entry {s : State} {z : Mat} (h : fwdDc4Result s = .ok z) :
    z.InRange ∧ ∀ i < 4, ∀ j < 4, z.entry i j = fwdDc4Spec s i j := by
  rw [fwdDc4Result_eq] at h
  obtain ⟨y, hy, hz⟩ := except_bind_eq_ok_iff.mp h
  have hhalf : ∀ i < 4, ∀ j < 4, y.entry i j = sandwich hMat (mat4 s.dcb) i j / 2 := fun i hi j hj => by
    rw [dcFwd4_entry hy hi hj, sandwich_ofVec]
  by_cases hQ : s.argFlag 0 0 = true
  · rw [if_pos hQ] at hz
    refine ⟨Mat.mapE_inRange (fun h => (dcQuantOne_eq_ok h).1) hz, fun i hi j hj => ?_⟩
    simp only [(dcQuantOne_eq_ok (Mat.mapE_entry hz i j)).2, hhalf i hi j hj, fwdDc4Spec, if_pos hQ, State.qpArg]
  · rw [if_neg hQ] at hz
    cases hz
    exact ⟨dcFwd4_inRange hy, fun i hi j hj => by simp only [hhalf i hi j hj, fwdDc4Spec, if_neg hQ]⟩

theorem fwdDc4Result_ok {s : State} (hqp : s.QpOk) (h : ∀ k < 16, (vecInt s.dcb k).natAbs ≤ 2 ^ 13) :
    ∃ z, fwdDc4Result s = .ok z := by
  obtain ⟨y, hy, hyB⟩ := dcFwd4_ok (by norm_num) (mat4_bounded h)
  rw [fwdDc4Result_eq, hy, except_ok_bind]
  by_cases hQ : s.argFlag 0 0 = true
  · obtain ⟨z, hz, -⟩ := dcQuant4_ok (by norm_num) hyB (hqp.qpArg_le hQ) (s.argFlag 0 2)
    exact ⟨z, (if_pos hQ).trans hz⟩
  · exact ⟨y, if_neg hQ⟩

theorem toNat_ofInt_of_le {n : Nat} (h : n ≤ 16) : (BitVec.ofInt 32 (n : Int)).toNat = n := by
  rw [BitVec.ofInt_natCast, BitVec.toNat_ofNat, Nat.mod_eq_of_lt (by omega)]

theorem filter_length_le (p : Nat → Bool) (n : Nat) : ((List.range n).filter p).length ≤ n :=
  (List.length_filter_le ..).trans (List.length_range ..).le

/-- Settles O38, element by element of the Hadamard transform and its quantisation. -/
theorem fwdDc4Transforms : Obligations.FwdDc4Transforms := by
  refine fun s => ⟨fun hbad => ?_, fun hflags hqp => ?_⟩
  · rw [exec_fwdDc4, State.transformCommand_of_check_error]
    rwa [onlyFlags_02]
  · refine State.transformCommand_done (exec_fwdDc4 s) (onlyFlags_02.mpr hflags) hqp (fwdDc4Result_onlyOverflow s)
      (fun z hz => ?_) (fwdDc4Result_ok hqp)
    obtain ⟨hrange, hentry⟩ := fwdDc4Result_entry hz
    refine ⟨rfl, fun i hi j hj => (mat4_toVec hrange hi hj).trans (hentry i hi j hj), ?_⟩
    rw [State.takeFwdDc4, countNonzero_mat hentry]
    change ((({ s with dcb := z.toVec } : State).setResInt 1 _).getRes 1).toNat = _
    rw [State.setResInt_getRes, if_pos ⟨rfl, by decide⟩]
    exact toNat_ofInt_of_le (filter_length_le ..)

theorem invDc4Result_onlyOverflow (s : State) : OnlyOverflow (invDc4Result s) :=
  OnlyOverflow.ite (dcInv4_onlyOverflow _ _) (hadamard4_onlyOverflow _)

theorem exec_invDc4 (s : State) :
    exec .invDc4 s = .next (s.transformCommand [0] (invDc4Result s) fun r => { s with dcb := r.toVec }) := rfl

/-- INV_DC4's values as the rules give them (44 R293). -/
def invDc4Spec (s : State) (i j : Nat) : Int :=
  let f := sandwich hMat (mat4 s.dcb)
  if s.argFlag 0 0 then dcInv4Spec (s.argInt 1).toNat (f i j) else f i j

theorem invDc4Result_entry {s : State} {r : Mat} (h : invDc4Result s = .ok r) :
    r.InRange ∧ ∀ i < 4, ∀ j < 4, r.entry i j = invDc4Spec s i j := by
  rw [invDc4Result] at h
  by_cases hQ : s.argFlag 0 0 = true
  · rw [if_pos hQ] at h
    obtain ⟨f, -, hr⟩ := except_bind_eq_ok_iff.mp h
    refine ⟨Mat.mapE_inRange dcInvOne4_range hr, fun i hi j hj => ?_⟩
    simp only [dcInv4_entry h hi hj, sandwich_ofVec, invDc4Spec, if_pos hQ, State.qpArg]
  · rw [if_neg hQ] at h
    refine ⟨hadamard4_inRange h, fun i hi j hj => ?_⟩
    simp only [hadamard4_entry h hi hj, sandwich_ofVec, invDc4Spec, if_neg hQ]

theorem invDc4Result_ok {s : State} (hqp : s.QpOk) (h : ∀ k < 16, (vecInt s.dcb k).natAbs ≤ 2 ^ 16) :
    ∃ r, invDc4Result s = .ok r := by
  rw [invDc4Result]
  by_cases hQ : s.argFlag 0 0 = true
  · obtain ⟨r, hr, -⟩ := dcInv4_ok (by norm_num) (mat4_bounded h) (hqp.qpArg_le hQ)
    exact ⟨r, (if_pos hQ).trans hr⟩
  · obtain ⟨r, hr, -⟩ := hadamard4_ok (by norm_num) (mat4_bounded h)
    exact ⟨r, (if_neg hQ).trans hr⟩

/-- Settles O39, element by element of the Hadamard transform and its scaling. -/
theorem invDc4Transforms : Obligations.InvDc4Transforms := by
  refine fun s => ⟨fun hbad => ?_, fun hflags hqp => ?_⟩
  · rw [exec_invDc4, State.transformCommand_of_check_error]
    rwa [onlyFlags_0, Nat.not_lt]
  · refine State.transformCommand_done (exec_invDc4 s) (onlyFlags_0.mpr hflags) hqp (invDc4Result_onlyOverflow s)
      (fun r hr => ?_) (invDc4Result_ok hqp)
    obtain ⟨hrange, hentry⟩ := invDc4Result_entry hr
    exact ⟨rfl, fun i hi j hj => (mat4_toVec hrange hi hj).trans (hentry i hi j hj)⟩

/-! ### FWD_DC2 and INV_DC2 (44 R294, R295) -/

theorem fwdDc2Result_eq (s : State) : fwdDc2Result s = (hadamard2 (dcb2 s.dcb)).bind fun y =>
    if s.argFlag 0 0 then dcQuant2 y s.qpArg (s.argFlag 0 2) else .ok y := rfl

theorem fwdDc2Result_onlyOverflow (s : State) : OnlyOverflow (fwdDc2Result s) :=
  (hadamard2_onlyOverflow _).bind fun y =>
    (OnlyOverflow.ite (dcQuant2_onlyOverflow y s.qpArg (s.argFlag 0 2)) (OnlyOverflow.ok y))

theorem invDc2Result_onlyOverflow (s : State) : OnlyOverflow (invDc2Result s) :=
  OnlyOverflow.ite (dcInv2_onlyOverflow _ _) (hadamard2_onlyOverflow _)

/-- The state that takes FWD_DC2's result. -/
def State.takeFwdDc2 (s : State) (z : Quad Int) : State :=
  { s with dcb := setDcb2 s.dcb z }.setResInt 1 (countNonzero z.toList)

theorem exec_fwdDc2 (s : State) :
    exec .fwdDc2 s = .next (s.transformCommand [0, 2] (fwdDc2Result s) s.takeFwdDc2) := rfl

theorem exec_invDc2 (s : State) : exec .invDc2 s =
    .next (s.transformCommand [0] (invDc2Result s) fun r => { s with dcb := setDcb2 s.dcb r }) := rfl

/-- FWD_DC2's values as the rules give them (44 R294). -/
def fwdDc2Spec (s : State) (k : Nat) : Int :=
  let f := sandwich2 h2Mat (mat2 s.dcb)
  if s.argFlag 0 0 then dcQuantSpec (s.argInt 1).toNat (s.argFlag 0 2) (f (k / 2) (k % 2)) else f (k / 2) (k % 2)

/-- INV_DC2's values as the rules give them (44 R295). -/
def invDc2Spec (s : State) (k : Nat) : Int :=
  let f := sandwich2 h2Mat (mat2 s.dcb)
  if s.argFlag 0 0 then dcInv2Spec (s.argInt 1).toNat (f (k / 2) (k % 2)) else f (k / 2) (k % 2)

theorem sandwich2_dcb2 (v : Vec16) (i j : Nat) :
    sandwich2 h2Mat (fun i j => (dcb2 v).get (2 * i + j)) i j = sandwich2 h2Mat (mat2 v) i j := rfl

theorem fwdDc2Result_get {s : State} {z : Quad Int} (h : fwdDc2Result s = .ok z) :
    ∀ k < 4, inInt32 (z.get k) = true ∧ z.get k = fwdDc2Spec s k := by
  rw [fwdDc2Result_eq] at h
  obtain ⟨y, hy, hz⟩ := except_bind_eq_ok_iff.mp h
  intro k hk
  by_cases hQ : s.argFlag 0 0 = true
  · rw [if_pos hQ] at hz
    obtain ⟨hrange, hval⟩ := dcQuantOne_eq_ok (Quad.mapE_get hz k)
    refine ⟨hrange, ?_⟩
    simp only [hval, hadamard2_get hy k hk, sandwich2_dcb2, fwdDc2Spec, if_pos hQ, State.qpArg]
  · rw [if_neg hQ] at hz
    cases hz
    refine ⟨hadamard2_range hy k, ?_⟩
    simp only [hadamard2_get hy k hk, sandwich2_dcb2, fwdDc2Spec, if_neg hQ]

theorem invDc2Result_get {s : State} {r : Quad Int} (h : invDc2Result s = .ok r) :
    ∀ k < 4, inInt32 (r.get k) = true ∧ r.get k = invDc2Spec s k := by
  rw [invDc2Result] at h
  intro k hk
  by_cases hQ : s.argFlag 0 0 = true
  · rw [if_pos hQ] at h
    obtain ⟨f, -, hr⟩ := except_bind_eq_ok_iff.mp h
    refine ⟨dcInvOne2_range (Quad.mapE_get hr k), ?_⟩
    simp only [dcInv2_get h hk, sandwich2_dcb2, invDc2Spec, if_pos hQ, State.qpArg]
  · rw [if_neg hQ] at h
    refine ⟨hadamard2_range h k, ?_⟩
    simp only [hadamard2_get h k hk, sandwich2_dcb2, invDc2Spec, if_neg hQ]

theorem dcb2_bounded {v : Vec16} {B : Nat} (h : ∀ k < 4, (vecInt v k).natAbs ≤ B) : (dcb2 v).Bounded B := by
  have h0 := h 0 (by decide)
  have h1 := h 1 (by decide)
  have h2 := h 2 (by decide)
  have h3 := h 3 (by decide)
  exact Quad.bounded_mk (by omega) (by omega) (by omega) (by omega)

theorem fwdDc2Result_ok {s : State} (hqp : s.QpOk) (h : ∀ k < 4, (vecInt s.dcb k).natAbs ≤ 2 ^ 14) :
    ∃ z, fwdDc2Result s = .ok z := by
  obtain ⟨y, hy, hyB⟩ := hadamard2_ok (by norm_num) _ (dcb2_bounded h)
  rw [fwdDc2Result_eq, hy, except_ok_bind]
  by_cases hQ : s.argFlag 0 0 = true
  · obtain ⟨z, hz, -⟩ := dcQuant2_ok (by norm_num) hyB (hqp.qpArg_le hQ) (s.argFlag 0 2)
    exact ⟨z, (if_pos hQ).trans hz⟩
  · exact ⟨y, if_neg hQ⟩

theorem invDc2Result_ok {s : State} (hqp : s.QpOk) (h : ∀ k < 4, (vecInt s.dcb k).natAbs ≤ 2 ^ 12) :
    ∃ r, invDc2Result s = .ok r := by
  rw [invDc2Result]
  by_cases hQ : s.argFlag 0 0 = true
  · obtain ⟨r, hr, -⟩ := dcInv2_ok (by norm_num) (dcb2_bounded h) (hqp.qpArg_le hQ)
    exact ⟨r, (if_pos hQ).trans hr⟩
  · obtain ⟨r, hr, -⟩ := hadamard2_ok (by norm_num) _ (dcb2_bounded h)
    exact ⟨r, (if_neg hQ).trans hr⟩

/-- DCB with its first four elements replaced, element by element. -/
theorem vecInt_setDcb2 {v : Vec16} {q : Quad Int} {z : Nat → Int} (h : ∀ k < 4, inInt32 (q.get k) = true ∧ q.get k = z k) :
    ∀ k < 16, vecInt (setDcb2 v q) k = if k < 4 then z k else vecInt v k := by
  intro k hk
  rw [setDcb2, vecInt_fillVec _ _ _ hk]
  refine ite_congr rfl (fun hk4 => ?_) fun _ => rfl
  obtain ⟨hrange, hval⟩ := h k hk4
  rw [Quad.toList_getD q hk4, toInt_toWord hrange, hval]

/-- Settles O40, element by element of the 2x2 transform and its quantisation or scaling. -/
theorem dc2Transforms : Obligations.Dc2Transforms := by
  refine fun s => ⟨fun hbad => ?_, fun hbad => ?_, fun hqp => ⟨fun hflags => ?_, fun hflags => ?_⟩⟩
  · rw [exec_fwdDc2, State.transformCommand_of_check_error]
    rwa [onlyFlags_02]
  · rw [exec_invDc2, State.transformCommand_of_check_error]
    rwa [onlyFlags_0, Nat.not_lt]
  · refine State.transformCommand_done (exec_fwdDc2 s) (onlyFlags_02.mpr hflags) hqp (fwdDc2Result_onlyOverflow s)
      (fun z hz => ?_) (fwdDc2Result_ok hqp)
    have hget := fwdDc2Result_get hz
    refine ⟨rfl, vecInt_setDcb2 hget, ?_⟩
    rw [State.takeFwdDc2, countNonzero_quad fun k hk => (hget k hk).2]
    change ((({ s with dcb := setDcb2 s.dcb z } : State).setResInt 1 _).getRes 1).toNat = _
    rw [State.setResInt_getRes, if_pos ⟨rfl, by decide⟩]
    exact toNat_ofInt_of_le ((filter_length_le ..).trans (by decide))
  · refine State.transformCommand_done (exec_invDc2 s) (onlyFlags_0.mpr hflags) hqp (invDc2Result_onlyOverflow s)
      (fun r hr => ?_) (invDc2Result_ok hqp)
    exact ⟨rfl, vecInt_setDcb2 (invDc2Result_get hr)⟩

end Sys2Proof.Machine
end

section
/-! PROOFS. The errors that the procedures of the model can raise (60 R400): none of them is MbFailure, which a
macroblock command's end alone gives (60 R408), and those of a decode procedure are the stream's and the codec's. -/

namespace Sys2Proof.Machine

/-! ### The errors of a computation -/

/-- Every error that `x` can be is one of `P`. -/
def Raises {α : Type} (P : Err → Prop) (x : Except Err α) : Prop := ∀ e, x = .error e → P e

/-- An error that is a cause of MbFailure or ends a command itself (60 R400, R408). -/
def Err.Plain (e : Err) : Prop := e ≠ .mbFailure

/-- An error of reading, writing, or decoding the stream: the ones that can be dirty (60 R411). -/
def Err.OfStream (e : Err) : Prop := e ∈ [Err.tableMiss, .codecError, .streamExhausted, .streamOverflow]

theorem Err.OfStream.plain {e : Err} (h : e.OfStream) : e.Plain := by
  rintro rfl
  simp [Err.OfStream] at h

section
variable {α β : Type} {P : Err → Prop}

theorem Raises.ok (a : α) : Raises P (.ok a) := fun _ h => by cases h

theorem Raises.error {e : Err} (h : P e) : Raises P (.error e : Except Err α) := fun _ h' => by cases h'; exact h

theorem Raises.mono {Q : Err → Prop} {x : Except Err α} (h : Raises P x) (hPQ : ∀ e, P e → Q e) : Raises Q x :=
  fun e he => hPQ e (h e he)

theorem Raises.bind {x : Except Err α} {f : α → Except Err β} (hx : Raises P x) (hf : ∀ a, x = .ok a → Raises P (f a)) :
    Raises P (x.bind f) := fun e h =>
  (except_bind_eq_error_iff.mp h).elim (hx e) fun ⟨a, ha, he⟩ => hf a ha e he

theorem Raises.ite {p : Prop} [Decidable p] {x y : Except Err α} (hx : Raises P x) (hy : Raises P y) :
    Raises P (if p then x else y) := by
  split
  · exact hx
  · exact hy

theorem Raises.require {c : Bool} {e : Err} (h : P e) : Raises P (require c e) := Raises.ite (Raises.ok ()) (Raises.error h)

/-- A check and what follows it. -/
theorem Raises.check {c : Bool} {e : Err} (h : P e) {x : Except Err α} (hx : c = true → Raises P x) :
    Raises P ((Machine.require c e).bind fun _ => x) :=
  (Raises.require h).bind fun _ hc => hx ((require_ok c e).mp hc)

end

theorem Err.plain_tableMiss : Err.tableMiss.Plain := nofun
theorem Err.plain_badOperand : Err.badOperand.Plain := nofun
theorem Err.plain_unsupported : Err.unsupported.Plain := nofun
theorem Err.plain_orderViolation : Err.orderViolation.Plain := nofun
theorem Err.plain_noGrid : Err.noGrid.Plain := nofun
theorem Err.plain_streamExhausted : Err.streamExhausted.Plain := nofun
theorem Err.plain_streamOverflow : Err.streamOverflow.Plain := nofun
theorem Err.plain_arithOverflow : Err.arithOverflow.Plain := nofun
theorem Err.ofStream_tableMiss : Err.tableMiss.OfStream := by simp [Err.OfStream]
theorem Err.ofStream_codecError : Err.codecError.OfStream := by simp [Err.OfStream]
theorem Err.ofStream_streamExhausted : Err.streamExhausted.OfStream := by simp [Err.OfStream]
theorem Err.ofStream_streamOverflow : Err.streamOverflow.OfStream := by simp [Err.OfStream]

theorem OnlyOverflow.plain {α : Type} {x : Except Err α} (h : OnlyOverflow x) : Raises Err.Plain x := fun e he => by
  rw [h e he]
  exact Err.plain_arithOverflow

/-! ### The codewords of the encode commands -/

/-- A codeword that `emit` can write in one BSWrite, or an error of a command. -/
def Emittable (x : Except Err Codeword) : Prop := (∀ c, x = .ok c → c.len ≤ 32) ∧ Raises Err.Plain x

theorem Emittable.ok {c : Codeword} (h : c.len ≤ 32) : Emittable (.ok c) := ⟨fun _ h' => (Except.ok.inj h') ▸ h, Raises.ok c⟩

theorem Emittable.error {e : Err} (h : e.Plain) : Emittable (.error e) := ⟨nofun, Raises.error h⟩

theorem Emittable.ite {p : Prop} [Decidable p] {x y : Except Err Codeword} (hx : Emittable x) (hy : Emittable y) :
    Emittable (if p then x else y) := by
  split
  · exact hx
  · exact hy

theorem Emittable.bind {α : Type} {x : Except Err α} {f : α → Except Err Codeword} (hx : Raises Err.Plain x)
    (hf : ∀ a, x = .ok a → Emittable (f a)) : Emittable (x.bind f) := by
  cases x with
  | error e => exact Emittable.error (hx e rfl)
  | ok a => exact hf a rfl

theorem lookupCode_raises {σ : Type} [DecidableEq σ] (t : VlcTable σ) (x : σ) :
    Raises (· = .tableMiss) (lookupCode t x) := fun e h => by
  unfold lookupCode at h
  split at h
  · cases h
  · exact (Except.error.inj h).symm

theorem lookupCode_emittable {σ : Type} [DecidableEq σ] {t : VlcTable σ} (ht : IsCodebook t) (x : σ) :
    Emittable (lookupCode t x) :=
  ⟨fun _ h => (ht.writable (mem_of_lookupCode h)).2, (lookupCode_raises t x).mono fun _ he => he ▸ Err.plain_tableMiss⟩

theorem ueCodeword_emittable (v : Nat) : Emittable (ueCodeword v) := by
  rcases Nat.lt_or_ge 65534 v with hv | hv
  · rw [ueCodeword_of_gt hv]
    exact Emittable.error Err.plain_tableMiss
  · rw [ueCodeword_of_le hv]
    exact Emittable.ok (ueBits_length_le hv)

theorem seCodeword_emittable (v : Int) : Emittable (seCodeword v) := ueCodeword_emittable _

theorem teCodeword_emittable (v cmax : Int) : Emittable (teCodeword v cmax) :=
  Emittable.bind (Raises.require Err.plain_badOperand) fun _ _ => Emittable.bind (Raises.require Err.plain_tableMiss)
    fun _ _ => Emittable.ite (Emittable.ok (Nat.le_of_ble_eq_true rfl)) (ueCodeword_emittable _)

theorem ncClass_raises (nc : Int) : Raises (· = .badOperand) (ncClass nc) := by
  intro e he
  unfold ncClass at he
  split_ifs at he
  exact (Except.error.inj he).symm

theorem coeffToken_emittable (tc t1 nc : Int) : Emittable (coeffToken tc t1 nc) :=
  Emittable.bind ((ncClass_raises nc).mono fun _ he => he ▸ Err.plain_badOperand) fun c _ =>
    Emittable.bind (Raises.require Err.plain_tableMiss) fun _ _ => lookupCode_emittable (ctTable_isCodebook c) _

theorem totalZerosCode_emittable {n m : Nat} {tbl : Nat → VlcTable Nat} (htbl : IsTotalZeros n m tbl) (tz tc : Int) :
    Emittable (totalZerosCode n m tbl tz tc) := by
  rw [totalZerosCode_eq]
  split
  · next h =>
    obtain ⟨hlow, hhigh, -, -⟩ := h
    exact lookupCode_emittable (htbl tc.toNat (by omega) (by omega)).1 _
  · exact Emittable.error Err.plain_tableMiss

theorem rbCode_emittable (rb zl : Int) : Emittable (rbCode rb zl) := by
  rw [rbCode_eq]
  split
  · next h => exact lookupCode_emittable (rbTable_isCodebook (by omega)) _
  · exact Emittable.error Err.plain_tableMiss

theorem cbpCodeword_emittable (intra : Bool) (p : Int) : Emittable (cbpCodeword intra p) :=
  Emittable.bind (Raises.require Err.plain_tableMiss) fun _ _ => ueCodeword_emittable _

theorem prefix_emittable (v : Int) : Emittable ((require (within 0 31 v) .tableMiss).bind fun _ => .ok (prefixCode v.toNat)) :=
  Emittable.bind (Raises.require Err.plain_tableMiss) fun _ h => Emittable.ok (by
    obtain ⟨hlow, hhigh⟩ := within_eq_true_iff.mp ((require_ok _ _).mp h)
    change v.toNat + 1 ≤ 32
    omega)

/-! ### The decode procedures -/

theorem countZeros_raises (n : Nat) (st : Stream) : Raises Err.OfStream (countZeros n st) := fun _ h =>
  (countZeros_error h).elim (fun he => he ▸ Err.ofStream_tableMiss) fun he => he ▸ Err.ofStream_streamExhausted

theorem ueDecode_raises (st : Stream) : Raises Err.OfStream (ueDecode st) := fun _ h =>
  (ueDecode_error h).elim (fun he => he ▸ Err.ofStream_tableMiss) fun he => he ▸ Err.ofStream_streamExhausted

theorem read_raises {n : Nat} (hn : n ≤ 32) (st : Stream) : Raises Err.OfStream (st.read n) := fun _ h =>
  Stream.read_error hn h ▸ Err.ofStream_streamExhausted

theorem readBit_raises (st : Stream) : Raises Err.OfStream st.readBit := by
  rw [Stream.readBit_eq_read]
  exact (read_raises (by decide) st).bind fun _ _ => Raises.ok _

theorem walkFrom_raises {σ : Type} (t : VlcTable σ) (fuel : Nat) (c : Codeword) (st : Stream) :
    Raises Err.OfStream (walkFrom t fuel c st) := by
  induction fuel generalizing c st with
  | zero => exact Raises.error Err.ofStream_tableMiss
  | succ fuel ih =>
    refine (readBit_raises st).bind fun p _ => ?_
    change Raises Err.OfStream (match tableSymbol t ⟨c.len + 1, 2 * c.pat + p.1.toNat⟩ with
      | some x => .ok (x, p.2)
      | none => walkFrom t fuel ⟨c.len + 1, 2 * c.pat + p.1.toNat⟩ p.2)
    split
    · exact Raises.ok _
    · exact ih _ _

theorem vlcWalk_raises {σ : Type} (t : VlcTable σ) (st : Stream) : Raises Err.OfStream (vlcWalk t st) :=
  walkFrom_raises t _ _ st

theorem decodeSigns_raises (n : Nat) (st : Stream) : Raises Err.OfStream (decodeSigns n st) := by
  induction n generalizing st with
  | zero => exact Raises.ok _
  | succ n ih => exact (readBit_raises st).bind fun p _ => (ih p.2).bind fun _ _ => Raises.ok _

theorem decodeLevel_raises {sL : Nat} (hsL : sL ≤ 6) (reduced : Bool) (st : Stream) :
    Raises Err.OfStream (decodeLevel reduced sL st) := by
  refine (countZeros_raises _ st).bind fun p hp => (read_raises ?_ p.2).bind fun _ _ => Raises.ok _
  obtain ⟨hlt, -, -⟩ := countZeros_eq_ok_iff.mp hp
  change p.1 < 32 at hlt
  unfold levelSuffixSize
  split_ifs <;> omega

theorem decodeLevels_raises {sL : Nat} (hsL : sL ≤ 6) (n : Nat) (reduced : Bool) (st : Stream) :
    Raises Err.OfStream (decodeLevels n reduced sL st) := by
  induction n generalizing sL reduced st with
  | zero => exact Raises.ok _
  | succ n ih =>
    exact (decodeLevel_raises hsL reduced st).bind fun p _ => (ih (nextSuffix_le hsL p.1) false p.2).bind
      fun _ _ => Raises.ok _

theorem decodeRuns_raises (n zl : Nat) (st : Stream) : Raises Err.OfStream (decodeRuns n zl st) := by
  induction n generalizing zl st with
  | zero => exact Raises.ok _
  | succ n ih =>
    rw [decodeRuns_succ]
    refine Raises.ite ((vlcWalk_raises _ st).bind fun p _ => Raises.check Err.ofStream_codecError fun _ =>
      (ih _ p.2).bind fun _ _ => Raises.ok _) ((ih _ st).bind fun _ _ => Raises.ok _)

theorem decodeTotalZeros_raises (maxN tc : Nat) (st : Stream) : Raises Err.OfStream (decodeTotalZeros maxN tc st) :=
  Raises.ite ((vlcWalk_raises _ st).bind fun _ _ => Raises.check Err.ofStream_codecError fun _ => Raises.ok _)
    (Raises.ok _)

theorem decodeResidual_raises (maxN tc t1 : Nat) (st : Stream) : Raises Err.OfStream (decodeResidual maxN tc t1 st) :=
  (decodeSigns_raises t1 st).bind fun p _ => (decodeLevels_raises (initialSuffix_le tc t1) _ _ p.2).bind fun q _ =>
    (decodeTotalZeros_raises maxN tc q.2).bind fun z _ => (decodeRuns_raises _ _ z.2).bind fun _ _ => Raises.ok _

theorem decodeBlock_raises {maxN : Nat} {nc : Int} (hnc : -2 ≤ nc) (st : Stream) :
    Raises Err.OfStream (decodeBlock maxN nc st) := by
  refine Raises.bind (fun e he => ?_) fun c _ => (vlcWalk_raises _ st).bind fun p _ =>
    Raises.bind (Raises.check Err.ofStream_codecError fun _ => (Raises.ok _).ite (decodeResidual_raises maxN p.1.1 p.1.2 p.2)) fun _ _ =>
      Raises.ok _
  unfold ncClass at he
  rw [if_neg (by omega)] at he
  split_ifs at he

/-- Inside CAVLC a miss is CodecError (43 R237). -/
theorem codecStep_raises_ofStream {α : Type} {x : Except Err α} (h : Raises Err.OfStream x) : Raises Err.OfStream (codecStep x) :=
  fun e he => by
    obtain ⟨e', hx, rfl⟩ := codecStep_eq_error_iff.mp he
    unfold asCodecError
    split
    · exact Err.ofStream_codecError
    · exact h e' hx

theorem cavlcDecode_raises {maxN : Nat} {nc : Int} (hnc : -2 ≤ nc) (st : Stream) :
    Raises Err.OfStream (cavlcDecode maxN nc st) := by
  refine codecStep_raises_ofStream ?_
  rw [cavlcDecodeRaw_eq]
  exact (decodeBlock_raises hnc st).bind fun _ _ => Raises.ok _

/-! ### The checks of the other commands -/

theorem setType_raises (st intra pm cbp : Int) : Raises Err.Plain (setType st intra pm cbp) := by
  rw [setType_eq]
  refine (Raises.error Err.plain_unsupported).ite ((Raises.error Err.plain_badOperand).ite (Raises.ite ?_ ?_))
  · exact (Raises.ok _).ite (Raises.error Err.plain_badOperand)
  · exact (Raises.error Err.plain_tableMiss).ite ((Raises.error Err.plain_tableMiss).ite (Raises.ok _))

theorem unpackIntra_raises (t : Int) : Raises Err.Plain (unpackIntra t) :=
  Raises.check Err.plain_unsupported fun _ => Raises.check Err.plain_tableMiss fun _ => Raises.ok _

theorem unpackMbType_raises (st t : Int) : Raises Err.Plain (unpackMbType st t) := by
  rw [unpackMbType_eq]
  refine (Raises.error Err.plain_unsupported).ite ((Raises.error Err.plain_tableMiss).ite (Raises.ite ?_
    (unpackIntra_raises t)))
  exact (Raises.ok _).ite ((Raises.error Err.plain_unsupported).ite ((Raises.error Err.plain_tableMiss).ite
    (unpackIntra_raises _)))

theorem bindCheck_raises (s : State) : Raises Err.Plain (bindCheck s) := by
  rw [bindCheck_eq]
  exact (Raises.ok _).ite (Raises.error Err.plain_badOperand)

theorem flagCheck_raises (s : State) (named : List Nat) : Raises Err.Plain (flagCheck s named) :=
  Raises.check Err.plain_badOperand fun _ => Raises.require Err.plain_badOperand

theorem gridIndex_raises (s : State) : Raises Err.Plain (gridIndex s) :=
  Raises.check Err.plain_noGrid fun _ => Raises.check Err.plain_badOperand fun _ => Raises.ok _

theorem compOf_raises (v : Int) : Raises Err.Plain (compOf v) :=
  (Raises.ok _).ite ((Raises.ok _).ite ((Raises.ok _).ite (Raises.error Err.plain_badOperand)))

theorem orderCheck_raises (s : State) (m : Nat) : Raises Err.Plain (orderCheck s m) :=
  Raises.check Err.plain_orderViolation fun _ => Raises.check Err.plain_orderViolation fun _ =>
    Raises.require Err.plain_orderViolation

theorem encodeCheck_raises (s : State) : Raises Err.Plain (encodeCheck s) :=
  (gridIndex_raises s).bind fun m _ => Raises.check Err.plain_unsupported fun _ => Raises.check Err.plain_badOperand
    fun _ => Raises.check Err.plain_badOperand fun _ => by
      refine Raises.ite ?_ ?_
      · exact Raises.check Err.plain_badOperand fun _ => (orderCheck_raises s m).bind fun _ _ => Raises.ok _
      · exact Raises.check Err.plain_badOperand fun _ => (orderCheck_raises s m).bind fun _ _ => Raises.ok _

theorem decodeCheck_raises (s : State) : Raises Err.Plain (decodeCheck s) :=
  (gridIndex_raises s).bind fun m _ => Raises.check Err.plain_unsupported fun _ => Raises.check Err.plain_badOperand
    fun _ => (orderCheck_raises s m).bind fun _ _ => Raises.ok _

end Sys2Proof.Machine
end

section
/-! PROOFS. How a command ends (60 R409 to R411), for all commands at once: the state `u` and the bits `bs` such that
the command leaves `u` with `bs` written at BS_POS. Neither depends on what BSBUF holds outside the bound stream. -/

namespace Sys2Proof.Machine

/-! ### BSBUF apart from the rest of the state -/

/-- `s` with other contents in BSBUF. -/
def State.rebuf (s : State) (b : List Host.Cell) : State := { s with bsbuf := b }

/-- `b` has the bits of the bound stream that BSBUF has. -/
def State.SameBits (s : State) (b : List Host.Cell) : Prop :=
  ∀ p < s.bsLen.toNat, { s.stream with buf := b }.bit p = s.stream.bit p

theorem State.SameBits.refl (s : State) : s.SameBits s.bsbuf := fun _ _ => rfl

theorem State.SameBits.sameRest {s : State} {b : List Host.Cell} (h : s.SameBits b) :
    s.stream.SameRest (s.rebuf b).stream := ⟨rfl, fun _ hk => h _ hk⟩

/-- `u` with the buffer that `s` has once `bs` is written at BS_POS. -/
def State.leaves (s u : State) (bs : List Bool) : State := u.rebuf (s.stream.put bs).buf

/-- BS_POS moved by `n`. -/
def State.advance (s : State) (n : Nat) : State := { s with bsPos := BitVec.ofNat 32 (s.bsPos.toNat + n) }

section
variable (s : State) (b : List Host.Cell)

theorem State.rebuf_setResList (i : Nat) (rs : List Int) : (s.rebuf b).setResList i rs = (s.setResList i rs).rebuf b := by
  induction rs generalizing s i with
  | nil => rfl
  | cons v vs ih => exact ih (s.setResInt i v) (i + 1)

theorem State.rebuf_fillView (p : Plane) (m : Nat) (f : Nat → Nat → Word) (l : List (Nat × Nat)) :
    (s.rebuf b).fillView p m f l = (s.fillView p m f l).rebuf b := by
  induction l generalizing s with
  | nil => rfl
  | cons ij l ih =>
    refine Eq.trans ?_ (ih (s.writePout p (s.viewRow p m ij.1) (s.viewCol p m ij.2) (f ij.1 ij.2)))
    cases p <;> rfl

theorem State.rebuf_writeViews (m : Nat) (p : List Mat × List Mat × List Mat) :
    (s.rebuf b).writeViews m p = (s.writeViews m p).rebuf b := by
  simp only [State.writeViews, State.writeView_eq_fillView, State.rebuf_fillView]

theorem State.rebuf_spoilViews (d m : Nat) : (s.rebuf b).spoilViews d m = (s.spoilViews d m).rebuf b := by
  have hview (t : State) (p : Plane) : (t.rebuf b).spoilView d p m = (t.spoilView d p m).rebuf b :=
    t.rebuf_fillView b p m (fun i j => Config.freeWord d (.pout p i j)) (square (viewSide p))
  simp only [State.spoilViews, hview]

/-- The free bits that a dirty error writes (60 R411). -/
def State.spoilBits (ws : WriteSet) : List Bool :=
  if ws.writesStream then (List.range (s.bsLen.toNat - s.bsPos.toNat)).map
    fun k => Config.freeBit s.draws (s.bsPos.toNat + k) else []

theorem State.rebuf_spoil (ws : WriteSet) : (s.rebuf b).spoil ws = (s.rebuf b).leaves (s.spoil ws) (s.spoilBits ws) := by
  have hcore : (s.rebuf b).spoilCore ws = (s.spoilCore ws).rebuf ((s.rebuf b).stream.put (s.spoilBits ws)).buf := rfl
  unfold State.spoil State.leaves
  rw [hcore]
  cases ws.mb with
  | none => rfl
  | some m =>
    cases ws.writesPout with
    | true => exact State.rebuf_spoilViews _ _ _ _
    | false => rfl

theorem State.spoilBits_length_le (ws : WriteSet) : (s.spoilBits ws).length ≤ s.bsLen.toNat - s.bsPos.toNat := by
  unfold State.spoilBits
  split
  · simp
  · exact Nat.zero_le _

end

/-! ### The effects of a command that completes -/

/-- The commands that only report a value (44 R296; 45 R371 to R374). -/
def queryInstrs : List Instr := [.qpc, .mbSettype, .mbUnpacktype, .mbNc, .mbMvp]

/-- The commands that read the stream and report what they read (40 R152, R153; 41; 42). -/
def readInstrs : List Instr :=
  [.bsRead1, .bsReadn, .ueDec, .seDec, .teDec, .ctDec, .tz4Dec, .tzc2Dec, .tzc4Dec, .rbDec, .pfxDec, .cbpDec]

/-- The commands that write the stream and report what they wrote (40 R154; 41; 42; 43 R250, R252). -/
def writeInstrs : List Instr :=
  [.bsWrite, .ueEnc, .seEnc, .teEnc, .ctEnc, .tz4Enc, .tzc2Enc, .tzc4Enc, .rbEnc, .pfxEnc, .cbpEnc, .cavlcEnc4,
    .cavlcEnc2]

/-- The transform commands on DCB (44 R292 to R295). -/
def dcInstrs : List Instr := [.fwdDc4, .invDc4, .fwdDc2, .invDc2]

/-- How many RES registers, from RES0 on, a command's rule names, the DC transforms apart (30 R106). -/
def resCount : Instr → Nat
  | .nop | .clrerr | .bsBind | .bsReset | .bsWrite | .inv4 | .fwdDc4 | .invDc4 | .fwdDc2 | .invDc2 | .mbInit => 0
  | .bsRead1 | .bsReadn | .ueDec | .seDec | .teDec | .tz4Dec | .tzc2Dec | .tzc4Dec | .rbDec | .pfxDec | .cbpDec
  | .qpc | .mbSettype | .mbNc => 1
  | .ueEnc | .seEnc | .teEnc | .ctEnc | .ctDec | .tz4Enc | .tzc2Enc | .tzc4Enc | .rbEnc | .pfxEnc | .fwd4 | .mbMvp => 2
  | .cbpEnc | .cavlcEnc4 | .cavlcDec4 | .cavlcEnc2 | .cavlcDec2 | .mbUnpacktype => 3
  | .mbEncode | .mbDecode => 11

/-- How many RES registers, from RES1 on, a DC transform's rule names (44 R292 to R295). -/
def dcResCount : Instr → Nat
  | .fwdDc4 | .fwdDc2 => 1
  | _ => 0

/-- `r` is the record of macroblock ARG0 that MB_ENCODE has formed before it writes it (45 R350, R345, R335). -/
def State.Forms (s : State) (r : MbRecord) : Prop :=
  ∃ r₁ t, encodeTransform s s.encodeArgs (encodeRecord s.encodeArgs) = .ok r₁ ∧
    setType s.encodeArgs.st (boolInt s.encodeArgs.intra) s.encodeArgs.pm (codedBlockPattern r₁) = .ok t ∧
    r = { r₁ with cbp := toWord (codedBlockPattern r₁), mbType := toWord t }

/-- A coded record (10 R37). -/
def MbRecord.coded (r : MbRecord) : MbRecord := { r with done := true }

/-- What a command that completes leaves, before STATUS is written: the state, BSBUF apart, and the bits written at
BS_POS. -/
inductive Effect (s : State) : Instr → State → List Bool → Prop
  | nop : Effect s .nop s []
  | clrerr : Effect s .clrerr { s with errAcc := 0 } []
  | bind (h : bindCheck s = .ok ()) : Effect s .bsBind s.bindStream []
  | rewind : Effect s .bsReset { s with bsPos := 0 } []
  | query {i : Instr} {rs : List Int} (hi : i ∈ queryInstrs) (hrs : rs.length ≤ resCount i) :
    Effect s i (s.setResList 0 rs) []
  | read {i : Instr} {rs : List Int} {n : Nat} (hi : i ∈ readInstrs) (hrs : rs.length ≤ resCount i) (hroom : s.Room n) :
    Effect s i ((s.advance n).setResList 0 rs) []
  | write {i : Instr} {rs : List Int} {bs : List Bool} (hi : i ∈ writeInstrs) (hrs : rs.length ≤ resCount i)
    (hroom : s.Room bs.length) : Effect s i ((s.advance bs.length).setResList 0 rs) bs
  | block4 {rs : List Int} {n : Nat} (v : Vec16) (hrs : rs.length ≤ 3) (hroom : s.Room n) :
    Effect s .cavlcDec4 ({ s.advance n with cb := v }.setResList 0 rs) []
  | block2 {rs : List Int} {n : Nat} (f : Nat → Word) (hrs : rs.length ≤ 3) (hroom : s.Room n) :
    Effect s .cavlcDec2 ({ s.advance n with cb := fillVec s.cb 4 f }.setResList 0 rs) []
  | fwd4 {rs : List Int} (v : Vec16) (hrs : rs.length ≤ 2) : Effect s .fwd4 ({ s with cb := v }.setResList 0 rs) []
  | inv4 (v : Vec16) : Effect s .inv4 { s with tb := v } []
  | dc {i : Instr} {rs : List Int} (v : Vec16) (hi : i ∈ dcInstrs) (hrs : rs.length ≤ dcResCount i)
    (hkeep : i ∈ [.fwdDc2, .invDc2] → ∃ f, v = fillVec s.dcb 4 f) :
    Effect s i ({ s with dcb := v }.setResList 1 rs) []
  | grid (hw : 1 ≤ s.argInt 0 ∧ s.argInt 0 ≤ s.cfg.maxMbw) (hh : 1 ≤ s.argInt 1 ∧ s.argInt 1 ≤ s.cfg.maxMbh) :
    Effect s .mbInit s.initGrid []
  | encode {r : MbRecord} {bs : List Bool} (hready : s.EncodeReady) (hforms : s.Forms r)
    (hbits : itemsBits (layerItems s s.encodeArgs r).1 = some bs) (hroom : s.Room bs.length) :
    Effect s .mbEncode (((s.advance bs.length).setRecord s.mArg (layerItems s s.encodeArgs r).2.coded).setResList 0
      (mbResults bs.length (layerItems s s.encodeArgs r).2.coded)) bs
  | decode {r : MbRecord} {n : Nat} {p : List Mat × List Mat × List Mat} (hready : s.DecodeReady)
    (hlayer : decodeLayer s s.decodeArgs s.stream = .ok (r, s.stream.skip n)) (hrec : reconstruct s.cfg r = .ok p)
    (hroom : s.Room n) :
    Effect s .mbDecode ((((s.advance n).writeViews s.mArg p).setRecord s.mArg r.coded).setResList 0
      (mbResults n r.coded)) []

/-! ### The ends of a command -/

/-- The write-set of a command's dirty errors (60 R411). -/
def dirtyWrites : Instr → Option WriteSet
  | .ueDec | .seDec | .teDec | .tz4Dec | .tzc2Dec | .tzc4Dec | .rbDec | .pfxDec | .cbpDec => some (decodeWrites 1)
  | .ctDec => some (decodeWrites 2)
  | .cavlcEnc4 | .cavlcEnc2 => some (cavlcWrites true 0)
  | .cavlcDec4 => some (cavlcWrites false 16)
  | .cavlcDec2 => some (cavlcWrites false 4)
  | _ => none

/-- How the command `i` can end on `s`: completed, with a clean error, with a dirty error after a first bit, or with
MbFailure after its check phase. -/
inductive Ended (i : Instr) (s : State) : State → List Bool → Prop
  | done {u : State} {bs : List Bool} (h : Effect s i u bs) : Ended i s u.succeed bs
  | clean {e : Err} (hi : i ≠ .clrerr) (he : e.Plain) : Ended i s (s.fail e) []
  | dirty {e : Err} {ws : WriteSet} (hws : dirtyWrites i = some ws) (he : e.OfStream) (hroom : s.Room 1) :
    Ended i s ((s.spoil ws).fail e) (s.spoilBits ws)
  | failed {e : Err} {pout : Bool} (hi : i = if pout then .mbDecode else .mbEncode) (hgrid : s.OnGrid) :
    Ended i s ((s.spoil (mbWrites s.mArg pout)).failMb e) (s.spoilBits (mbWrites s.mArg pout))

/-- On every buffer with the bound stream of `s`, the command leaves `u` with `bs` written. -/
def Leaves (i : Instr) (s u : State) (bs : List Bool) : Prop :=
  ∀ b, s.SameBits b → exec i (s.rebuf b) = .next ((s.rebuf b).leaves u bs)

/-- The command has one of its ends. -/
def HasEnd (i : Instr) (s : State) : Prop := ∃ u bs, Ended i s u bs ∧ Leaves i s u bs

theorem Leaves.exec {i : Instr} {s u : State} {bs : List Bool} (h : Leaves i s u bs) : exec i s = .next (s.leaves u bs) :=
  h s.bsbuf (State.SameBits.refl s)

end Sys2Proof.Machine
end

section
/-! PROOFS. The ends of the commands that are no macroblock commands, one family after another (60 R410, R411). -/

namespace Sys2Proof.Machine

/-! ### The end of a command's body -/

/-- The body of a command raises an error of `P`, or leaves a state and written bits with `Q`; which of them, does not
depend on what BSBUF holds outside the bound stream. -/
def BodyEnds (s : State) (P : Err → Prop) (Q : State → List Bool → Prop) (body : State → Except Err State) : Prop :=
  (∃ e, P e ∧ ∀ b, s.SameBits b → body (s.rebuf b) = .error e) ∨
  (∃ u bs, Q u bs ∧ ∀ b, s.SameBits b → body (s.rebuf b) = .ok ((s.rebuf b).leaves u bs))

section
variable {i : Instr} {s : State} {α : Type} {P : Err → Prop} {Q : State → List Bool → Prop}

theorem HasEnd.of_fail {e : Err} (hi : i ≠ .clrerr) (he : e.Plain)
    (h : ∀ b, s.SameBits b → exec i (s.rebuf b) = .next ((s.rebuf b).fail e)) : HasEnd i s :=
  ⟨s.fail e, [], .clean hi he, h⟩

theorem HasEnd.of_done {u : State} {bs : List Bool} (hu : Effect s i u bs)
    (h : ∀ b, s.SameBits b → exec i (s.rebuf b) = .next ((s.rebuf b).leaves u bs).succeed) : HasEnd i s :=
  ⟨u.succeed, bs, .done hu, h⟩

/-- A command all of whose errors are clean. -/
theorem HasEnd.clean {body : State → Except Err State} (hi : i ≠ .clrerr)
    (hbody : BodyEnds s Err.Plain (Effect s i) body)
    (hexec : ∀ b, exec i (s.rebuf b) = .next ((s.rebuf b).cleanCommand (body (s.rebuf b)))) : HasEnd i s := by
  rcases hbody with ⟨e, he, hb⟩ | ⟨u, bs, hu, hb⟩
  · exact HasEnd.of_fail hi he fun b h => (hexec b).trans (congrArg _ (State.cleanCommand_error (hb b h)))
  · exact HasEnd.of_done hu fun b h => (hexec b).trans (congrArg _ (State.cleanCommand_ok (hb b h)))

/-- A decode command, whose errors are dirty from its first bit on. -/
theorem HasEnd.decode {ws : WriteSet} {x : Except Err α} {body : α → State → Except Err State}
    (hws : dirtyWrites i = some ws) (hx : Raises Err.Plain x)
    (hbody : ∀ a, x = .ok a → s.Room 1 → BodyEnds s Err.OfStream (Effect s i) (body a))
    (hexec : ∀ b, exec i (s.rebuf b) = .next ((s.rebuf b).decodeCommand ws x fun a => body a (s.rebuf b))) :
    HasEnd i s := by
  have hi : i ≠ .clrerr := by
    rintro rfl
    cases hws
  cases x with
  | error e =>
    exact HasEnd.of_fail hi (hx e rfl) fun b _ => (hexec b).trans (congrArg _
      ((State.decodeCommand_of_check_error _ _ _ rfl).trans (State.fail_eq_endsClean _ e).symm))
  | ok a =>
    by_cases hroom : s.Room 1
    · have hcommand (b : List Host.Cell) : exec i (s.rebuf b) =
          .next ((s.rebuf b).dirtyCommand ws (.ok a) fun a => body a (s.rebuf b)) := by
        have hfirst : (s.rebuf b).firstRead = .ok () := (State.firstRead_eq _).trans (if_pos hroom)
        rw [hexec b, State.decodeCommand, hfirst]
        rfl
      rcases hbody a rfl hroom with ⟨e, he, hb⟩ | ⟨u, bs, hu, hb⟩
      · refine ⟨_, _, .dirty hws he hroom, fun b h => (hcommand b).trans (congrArg _ ?_)⟩
        rw [State.dirtyCommand, State.command, hb b h]
        exact congrArg (State.fail · e) (State.rebuf_spoil s b ws)
      · refine HasEnd.of_done hu fun b h => (hcommand b).trans (congrArg _ ?_)
        exact State.dirtyCommand_ok rfl (hb b h)
    · refine HasEnd.of_fail hi Err.plain_streamExhausted fun b _ => (hexec b).trans (congrArg _ ?_)
      have hfirst : (s.rebuf b).firstRead = .error .streamExhausted := (State.firstRead_eq _).trans (if_neg hroom)
      rw [State.decodeCommand, hfirst]
      rfl

/-! ### Bodies -/

theorem BodyEnds.ok {body : State → Except Err State} {u : State} {bs : List Bool} (hu : Q u bs)
    (h : ∀ b, body (s.rebuf b) = .ok ((s.rebuf b).leaves u bs)) : BodyEnds s P Q body :=
  .inr ⟨u, bs, hu, fun b _ => h b⟩

/-- A computation on the operands before a body. -/
theorem BodyEnds.bind {x : Except Err α} {body : α → State → Except Err State} (hx : Raises P x)
    (hbody : ∀ a, x = .ok a → BodyEnds s P Q (body a)) : BodyEnds s P Q fun t => x.bind fun a => body a t := by
  cases x with
  | error e => exact .inl ⟨e, hx e rfl, fun _ _ => rfl⟩
  | ok a => exact hbody a rfl

/-- A reader before a body. -/
theorem BodyEnds.read {d : Stream → Except Err (α × Stream)} (hd : IsReader d)
    {body : α → Stream → State → Except Err State} (hraise : Raises P (d s.stream))
    (hbody : ∀ a n, d s.stream = .ok (a, s.stream.skip n) → (n = 0 ∨ s.Room n) →
      BodyEnds s P Q fun t => body a (t.stream.skip n) t) :
    BodyEnds s P Q fun t => (d t.stream).bind fun p => body p.1 p.2 t := by
  cases hx : d s.stream with
  | error e =>
    refine .inl ⟨e, hraise e hx, fun b hb => ?_⟩
    change (d (s.rebuf b).stream).bind _ = _
    rw [hd.same_error hb.sameRest hx]
    rfl
  | ok p =>
    obtain ⟨a, st⟩ := p
    obtain ⟨n, rfl, hn⟩ := hd.takes hx
    have hread (b : List Host.Cell) (hb : s.SameBits b) (y : Except Err State)
        (h : body a ((s.rebuf b).stream.skip n) (s.rebuf b) = y) :
        ((d (s.rebuf b).stream).bind fun p => body p.1 p.2 (s.rebuf b)) = y := by
      rw [hd.same_ok hb.sameRest hx]
      exact h
    rcases hbody a n hx hn with ⟨e, he, hb⟩ | ⟨u, bs, hu, hb⟩
    · exact .inl ⟨e, he, fun b h => hread b h _ (hb b h)⟩
    · exact .inr ⟨u, bs, hu, fun b h => hread b h _ (hb b h)⟩

/-- A read of one element that is reported. -/
theorem BodyEnds.readReport (hi : i ∈ readInstrs) {d : Stream → Except Err (α × Stream)} (hd : IsReader d)
    {f : α → Except Err (List Int)} (hraise : Raises P (d s.stream)) (hf : ∀ a, Raises P (f a))
    (hlen : ∀ a rs, f a = .ok rs → rs.length ≤ resCount i)
    (hroom : ∀ a n, d s.stream = .ok (a, s.stream.skip n) → n = 0 → s.Room n) :
    BodyEnds s P (Effect s i) fun t => t.readReport d f :=
  BodyEnds.read hd (body := fun a st t => (f a).bind fun rs => .ok ((t.setStream st).setResList 0 rs)) hraise
    fun a n hx hn => BodyEnds.bind (hf a) fun rs hrs =>
      BodyEnds.ok (Effect.read hi (hlen a rs hrs) (hn.elim (hroom a n hx) id)) fun b =>
        congrArg _ (State.rebuf_setResList (s.advance n) b 0 rs)

/-- A codeword written and reported. -/
theorem BodyEnds.write (hi : i ∈ writeInstrs) {c : Codeword} (hc : c.len ≤ 32) {rs : List Int}
    (hlen : rs.length ≤ resCount i) :
    BodyEnds s Err.Plain (Effect s i) fun t => (t.stream.writeCode c).bind fun st =>
      .ok ((t.setStream st).setResList 0 rs) := by
  have hput (b : List Host.Cell) := Stream.writeCode_put (s.rebuf b).stream hc
  by_cases hroom : s.Room c.len
  · have hroom' : s.Room (codewordBits c).length := by rwa [codewordBits_length]
    refine BodyEnds.ok (Effect.write hi hlen hroom') fun b => ?_
    have hroom'' : (s.rebuf b).stream.pos + c.len ≤ (s.rebuf b).stream.len := hroom
    rw [hput, if_pos hroom'']
    exact congrArg _ (State.rebuf_setResList (s.advance _) _ 0 rs)
  · refine .inl ⟨.streamOverflow, Err.plain_streamOverflow, fun b _ => ?_⟩
    change (Stream.writeCode (s.rebuf b).stream c).bind _ = _
    have hroom'' : ¬ (s.rebuf b).stream.pos + c.len ≤ (s.rebuf b).stream.len := hroom
    rw [hput, if_neg hroom'']
    rfl

/-- A codeword emitted, when there is one. -/
theorem BodyEnds.emit (hi : i ∈ writeInstrs) (hlen : 2 ≤ resCount i) {x : Except Err Codeword} (hx : Emittable x) :
    BodyEnds s Err.Plain (Effect s i) fun t => x.bind t.emit :=
  BodyEnds.bind (body := fun c t => t.emit c) hx.2 fun c hc =>
    BodyEnds.write hi (hx.1 c hc) (rs := [(c.len : Int), (c.pat : Int)]) hlen

end

/-! ### The system, bit-stream and transform commands, and the queries -/

section
variable (s : State)

theorem hasEnd_nop : HasEnd .nop s := HasEnd.of_done Effect.nop fun _ _ => rfl

theorem hasEnd_clrerr : HasEnd .clrerr s := HasEnd.of_done Effect.clrerr fun _ _ => rfl

theorem hasEnd_bsReset : HasEnd .bsReset s := HasEnd.of_done Effect.rewind fun _ _ => rfl

theorem hasEnd_bsBind : HasEnd .bsBind s :=
  HasEnd.clean nofun (body := fun t => (bindCheck s).bind fun _ => .ok t.bindStream)
    (BodyEnds.bind (body := fun _ t => .ok t.bindStream) (bindCheck_raises s) fun _ h =>
      BodyEnds.ok (Effect.bind h) fun _ => rfl) fun b => exec_bsBind (s.rebuf b)

/-- A query reports its value, or ends with a clean error. -/
theorem hasEnd_query {i : Instr} (hi : i ∈ queryInstrs) {α : Type} {x : Except Err α} {rs : α → List Int}
    (hx : Raises Err.Plain x) (hlen : ∀ a, (rs a).length ≤ resCount i)
    (hexec : ∀ b, exec i (s.rebuf b) = .next ((s.rebuf b).cleanCommand
      (x.bind fun a => .ok ((s.rebuf b).setResList 0 (rs a))))) : HasEnd i s :=
  HasEnd.clean (fun h => absurd hi (h ▸ by decide)) (body := fun t => x.bind fun a => .ok (t.setResList 0 (rs a)))
    (BodyEnds.bind (body := fun a t => .ok (t.setResList 0 (rs a))) hx fun a _ =>
      BodyEnds.ok (Effect.query hi (hlen a)) fun b => congrArg _ (State.rebuf_setResList s b 0 (rs a))) hexec

theorem hasEnd_qpc : HasEnd .qpc s :=
  hasEnd_query s (by decide) (x := require (isQp (s.argInt 0)) .badOperand)
    (rs := fun _ => [(qpChroma s.cfg (s.argInt 0) : Int)])
    (Raises.require Err.plain_badOperand) (fun _ => Nat.le_refl _) fun b => exec_qpc (s.rebuf b)

theorem hasEnd_mbSettype : HasEnd .mbSettype s :=
  hasEnd_query s (by decide) (rs := fun t => [t]) (setType_raises (s.argInt 0) (s.argInt 1) (s.argInt 2) (s.argInt 3))
    (fun _ => Nat.le_refl _) fun b => exec_mbSettype (s.rebuf b)

theorem hasEnd_mbUnpacktype : HasEnd .mbUnpacktype s :=
  hasEnd_query s (by decide) (x := unpackMbType (s.argInt 0) (s.argInt 1)) (rs := fun r => [r.1, r.2.1, r.2.2])
    (unpackMbType_raises _ _) (fun _ => Nat.le_refl 3) fun b => exec_mbUnpacktype (s.rebuf b)

/-- The value of MB_NC (45 R373). -/
def ncValue (s : State) : Except Err Int :=
  (gridIndex s).bind fun m => (compOf (s.argInt 1)).bind fun c =>
    (require (within 0 c.lastBlk (s.argInt 2)) .badOperand).bind fun _ =>
      (require (s.nbrsDone m) .orderViolation).bind fun _ => .ok (s.nc (s.record m) m c (s.argInt 2).toNat)

theorem ncValue_raises : Raises Err.Plain (ncValue s) :=
  (gridIndex_raises s).bind fun _ _ => (compOf_raises _).bind fun _ _ => Raises.check Err.plain_badOperand fun _ =>
    Raises.check Err.plain_orderViolation fun _ => Raises.ok _

theorem exec_mbNc_eq_ncValue : exec .mbNc s = .next (s.cleanCommand ((ncValue s).bind fun v =>
    .ok (s.setResList 0 [v]))) := by
  rw [exec_mbNc, ncValue]
  cases gridIndex s with
  | error e => rfl
  | ok m =>
    cases compOf (s.argInt 1) with
    | error e => rfl
    | ok c =>
      simp only [except_ok_bind, require_bind]
      split_ifs <;> rfl

theorem hasEnd_mbNc : HasEnd .mbNc s :=
  hasEnd_query s (by decide) (rs := fun v => [v]) (ncValue_raises s) (fun _ => Nat.le_refl _)
    fun b => exec_mbNc_eq_ncValue (s.rebuf b)

/-- The value of MB_MVP (45 R374). -/
def mvpValue (s : State) : Except Err (Int × Int) :=
  (gridIndex s).bind fun m => (require (s.nbrsDone m) .orderViolation).bind fun _ =>
    .ok (s.mvp m (s.record m).slice)

theorem mvpValue_raises : Raises Err.Plain (mvpValue s) :=
  (gridIndex_raises s).bind fun _ _ => Raises.check Err.plain_orderViolation fun _ => Raises.ok _

theorem exec_mbMvp_eq_mvpValue : exec .mbMvp s = .next (s.cleanCommand ((mvpValue s).bind fun v =>
    .ok (s.setResList 0 [v.1, v.2]))) := by
  rw [exec_mbMvp, mvpValue]
  cases gridIndex s with
  | error e => rfl
  | ok m =>
    simp only [except_ok_bind, require_bind]
    split_ifs <;> rfl

theorem hasEnd_mbMvp : HasEnd .mbMvp s :=
  hasEnd_query s (by decide) (x := mvpValue s) (rs := fun v => [v.1, v.2]) (mvpValue_raises s) (fun _ => Nat.le_refl 2)
    fun b => exec_mbMvp_eq_mvpValue (s.rebuf b)

/-! ### The transform commands and MB_INIT -/

/-- A transform command takes its result, or ends with a clean error. -/
theorem hasEnd_transform {i : Instr} (hi : i ≠ .clrerr) {named : List Nat} {α : Type} {x : Except Err α} {f : α → State}
    (hx : OnlyOverflow x) (hf : ∀ a, Effect s i (f a) [])
    (hexec : ∀ b, exec i (s.rebuf b) = .next ((s.rebuf b).transformCommand named x fun a => (f a).rebuf b)) :
    HasEnd i s :=
  HasEnd.clean hi (body := fun t => (flagCheck s named).bind fun _ => x.bind fun a => .ok ((f a).rebuf t.bsbuf))
    (BodyEnds.bind (flagCheck_raises s named) fun _ _ =>
      BodyEnds.bind (body := fun a t => .ok ((f a).rebuf t.bsbuf)) hx.plain fun a _ =>
        BodyEnds.ok (hf a) fun _ => rfl) hexec

theorem hasEnd_fwd4 : HasEnd .fwd4 s :=
  hasEnd_transform s nofun (fwd4Result_onlyOverflow s)
    (fun r => Effect.fwd4 (rs := [r.1, (countNonzero r.2.toList : Int)]) r.2.toVec (Nat.le_refl 2)) fun b =>
    exec_fwd4 (s.rebuf b)

theorem hasEnd_inv4 : HasEnd .inv4 s :=
  hasEnd_transform s nofun (inv4Result_onlyOverflow s) (fun r => Effect.inv4 r.toVec) fun b => exec_inv4 (s.rebuf b)

theorem hasEnd_fwdDc4 : HasEnd .fwdDc4 s :=
  hasEnd_transform s nofun (fwdDc4Result_onlyOverflow s)
    (fun z => Effect.dc (rs := [(countNonzero z.toList : Int)]) z.toVec (by decide) (Nat.le_refl 1) nofun) fun b =>
      exec_fwdDc4 (s.rebuf b)

theorem hasEnd_invDc4 : HasEnd .invDc4 s :=
  hasEnd_transform s nofun (invDc4Result_onlyOverflow s)
    (fun r => Effect.dc (rs := []) r.toVec (by decide) (Nat.le_refl 0) nofun) fun b => exec_invDc4 (s.rebuf b)

theorem hasEnd_fwdDc2 : HasEnd .fwdDc2 s :=
  hasEnd_transform s nofun (fwdDc2Result_onlyOverflow s)
    (fun z => Effect.dc (rs := [(countNonzero z.toList : Int)]) (setDcb2 s.dcb z) (by decide) (Nat.le_refl 1)
      fun _ => ⟨_, rfl⟩) fun b => exec_fwdDc2 (s.rebuf b)

theorem hasEnd_invDc2 : HasEnd .invDc2 s :=
  hasEnd_transform s nofun (invDc2Result_onlyOverflow s)
    (fun r => Effect.dc (rs := []) (setDcb2 s.dcb r) (by decide) (Nat.le_refl 0) fun _ => ⟨_, rfl⟩) fun b =>
      exec_invDc2 (s.rebuf b)

theorem hasEnd_mbInit : HasEnd .mbInit s := by
  refine HasEnd.clean nofun (body := fun t => (require (within 1 s.cfg.maxMbw (s.argInt 0) &&
    within 1 s.cfg.maxMbh (s.argInt 1)) .badOperand).bind fun _ => .ok t.initGrid)
    (BodyEnds.bind (body := fun _ t => .ok t.initGrid) (Raises.require Err.plain_badOperand) fun _ h => ?_)
    fun b => exec_mbInit (s.rebuf b)
  obtain ⟨hw, hh⟩ := Bool.and_eq_true_iff.mp ((require_ok ..).mp h)
  exact BodyEnds.ok (Effect.grid (within_eq_true_iff.mp hw) (within_eq_true_iff.mp hh)) fun _ => rfl

end

end Sys2Proof.Machine
end

section
/-! PROOFS. The ends of the commands of 40, 41 and 42 that read or write the stream (60 R410, R411). -/

namespace Sys2Proof.Machine

section
variable (s : State)

/-! ### Encode commands: every error is clean -/

/-- A command that emits one codeword, when there is one. -/
theorem hasEnd_emit {i : Instr} (hi : i ∈ writeInstrs) (hlen : 2 ≤ resCount i) {x : Except Err Codeword}
    (hx : Emittable x) (hexec : ∀ b, exec i (s.rebuf b) = .next ((s.rebuf b).cleanCommand (x.bind (s.rebuf b).emit))) :
    HasEnd i s :=
  HasEnd.clean (fun h => absurd hi (h ▸ by decide)) (body := fun t => x.bind t.emit) (BodyEnds.emit hi hlen hx) hexec

theorem hasEnd_ueEnc : HasEnd .ueEnc s :=
  HasEnd.clean nofun (body := fun t => (require (decide (0 ≤ s.argInt 0)) .badOperand).bind fun _ =>
    (ueCodeword (s.argInt 0).toNat).bind t.emit)
    (BodyEnds.bind (body := fun _ t => (ueCodeword (s.argInt 0).toNat).bind t.emit)
      (Raises.require Err.plain_badOperand) fun _ _ =>
        BodyEnds.emit (i := .ueEnc) (by decide) (Nat.le_refl 2) (ueCodeword_emittable _)) fun b => exec_ueEnc (s.rebuf b)

theorem hasEnd_seEnc : HasEnd .seEnc s :=
  hasEnd_emit s (by decide) (Nat.le_refl 2) (seCodeword_emittable (s.argInt 0)) fun b => exec_seEnc (s.rebuf b)

theorem hasEnd_teEnc : HasEnd .teEnc s :=
  hasEnd_emit s (by decide) (Nat.le_refl 2) (teCodeword_emittable (s.argInt 0) (s.argInt 1)) fun b =>
    exec_teEnc (s.rebuf b)

theorem hasEnd_ctEnc : HasEnd .ctEnc s :=
  hasEnd_emit s (by decide) (Nat.le_refl 2) (coeffToken_emittable (s.argInt 0) (s.argInt 1) (s.argInt 2)) fun b =>
    exec_ctEnc (s.rebuf b)

theorem hasEnd_tz4Enc : HasEnd .tz4Enc s :=
  hasEnd_emit s (by decide) (Nat.le_refl 2) (totalZerosCode_emittable tz4_isTotalZeros (s.argInt 0) (s.argInt 1))
    fun b => exec_tz4Enc (s.rebuf b)

theorem hasEnd_tzc2Enc : HasEnd .tzc2Enc s :=
  hasEnd_emit s (by decide) (Nat.le_refl 2) (totalZerosCode_emittable tz22_isTotalZeros (s.argInt 0) (s.argInt 1))
    fun b => exec_tzc2Enc (s.rebuf b)

theorem hasEnd_tzc4Enc : HasEnd .tzc4Enc s :=
  hasEnd_emit s (by decide) (Nat.le_refl 2) (totalZerosCode_emittable tz24_isTotalZeros (s.argInt 0) (s.argInt 1))
    fun b => exec_tzc4Enc (s.rebuf b)

theorem hasEnd_rbEnc : HasEnd .rbEnc s :=
  hasEnd_emit s (by decide) (Nat.le_refl 2) (rbCode_emittable (s.argInt 0) (s.argInt 1)) fun b =>
    exec_rbEnc (s.rebuf b)

theorem hasEnd_pfxEnc : HasEnd .pfxEnc s :=
  hasEnd_emit s (by decide) (Nat.le_refl 2) (prefix_emittable (s.argInt 0)) fun b => exec_pfxEnc (s.rebuf b)

/-- CBP_ENC's codeword written, with the codeNum `k` in RES2 (42 R212). -/
theorem emit_setResInt (t : State) (c : Codeword) (k : Int) :
    ((t.emit c).bind fun u => .ok (u.setResInt 2 k)) = (t.stream.writeCode c).bind fun st =>
      .ok ((t.setStream st).setResList 0 [(c.len : Int), (c.pat : Int), k]) := by
  change ((t.stream.writeCode c).bind _).bind _ = _
  cases t.stream.writeCode c <;> rfl

theorem hasEnd_cbpEnc : HasEnd .cbpEnc s := by
  refine HasEnd.clean nofun (body := fun t => (require (decide (s.argInt 1 = 0 ∨ s.argInt 1 = 1)) .badOperand).bind fun _ =>
    (cbpCodeword (decide (s.argInt 1 = 1)) (s.argInt 0)).bind fun c =>
      (t.emit c).bind fun u => .ok (u.setResInt 2 (cbpInv (decide (s.argInt 1 = 1)) (s.argInt 0).toNat)))
    ?_ fun b => exec_cbpEnc (s.rebuf b)
  refine BodyEnds.bind (body := fun _ t => (cbpCodeword (decide (s.argInt 1 = 1)) (s.argInt 0)).bind fun c =>
      (t.emit c).bind fun u => .ok (u.setResInt 2 (cbpInv (decide (s.argInt 1 = 1)) (s.argInt 0).toNat)))
    (Raises.require Err.plain_badOperand) fun _ _ => ?_
  obtain ⟨hlen, hraise⟩ := cbpCodeword_emittable (decide (s.argInt 1 = 1)) (s.argInt 0)
  refine BodyEnds.bind (body := fun c t => (t.emit c).bind fun u =>
    .ok (u.setResInt 2 (cbpInv (decide (s.argInt 1 = 1)) (s.argInt 0).toNat))) hraise fun c hc => ?_
  rw [funext fun t : State => emit_setResInt t c _]
  exact BodyEnds.write (i := .cbpEnc) (by decide) (hlen c hc) (Nat.le_refl 3)

theorem hasEnd_bsWrite : HasEnd .bsWrite s := by
  refine HasEnd.clean nofun (body := fun t => (t.stream.write (s.argInt 0) (s.argInt 1)).bind (.ok <| t.setStream ·)) ?_
    fun b => exec_bsWrite (s.rebuf b)
  by_cases hn : 0 ≤ s.argInt 0 ∧ s.argInt 0 ≤ 32
  · obtain ⟨n, hn'⟩ := Int.eq_ofNat_of_zero_le hn.1
    have hc : (codewordOf (bitsOf n (s.argInt 1 % 4294967296).toNat)).len ≤ 32 := by
      simp only [codewordOf, bitsOf_length]
      omega
    have hwrite : (fun t : State => (t.stream.write (s.argInt 0) (s.argInt 1)).bind (.ok <| t.setStream ·)) =
        fun t => (t.stream.writeCode (codewordOf (bitsOf n (s.argInt 1 % 4294967296).toNat))).bind fun st =>
          .ok ((t.setStream st).setResList 0 []) := by
      funext t
      rw [hn', Stream.write_eq _ _ (by omega), Stream.writeCode_eq _ _ hc, codewordBits_codewordOf]
      simp only [codewordOf, bitsOf_length]
      rfl
    rw [hwrite]
    exact BodyEnds.write (by decide) hc (Nat.zero_le _)
  · refine .inl ⟨.badOperand, Err.plain_badOperand, fun b _ => ?_⟩
    change (Stream.write _ _ _).bind _ = _
    rw [Stream.write_bad _ _ (by omega)]
    rfl

/-! ### Reads whose errors are all clean -/

/-- A read within the stream leaves its position there. -/
theorem State.room_of_read {n : Int} {a k : Nat} (h : s.stream.read n = .ok (a, s.stream.skip k)) : s.Room 0 := by
  by_cases hn : 0 ≤ n ∧ n ≤ 32
  · obtain ⟨m, rfl⟩ := Int.eq_ofNat_of_zero_le hn.1
    obtain ⟨-, ⟨hroom, -⟩, -⟩ := (Stream.read_eq_ok_iff (by omega)).mp h
    exact Nat.le_trans (Nat.add_le_add_left (Nat.zero_le _) _) hroom
  · rw [Stream.read_bad _ (by omega)] at h
    cases h

theorem read_plain (n : Int) (st : Stream) : Raises Err.Plain (st.read n) :=
  Raises.check Err.plain_badOperand fun _ => Raises.check Err.plain_streamExhausted fun _ => Raises.ok _

/-- A command that is one read of bits, reported by `f`. -/
theorem hasEnd_cleanRead {i : Instr} (hi : i ∈ readInstrs) (hlen : 1 ≤ resCount i) (n : Int) (f : Nat → Int)
    (hexec : ∀ b, exec i (s.rebuf b) = .next ((s.rebuf b).cleanCommand
      ((s.rebuf b).readReport (fun st => st.read n) fun v => .ok [f v]))) : HasEnd i s :=
  HasEnd.clean (fun h => absurd hi (h ▸ by decide)) (body := fun t => t.readReport (fun st => st.read n) fun v => .ok [f v])
    (BodyEnds.readReport hi (IsReader.read n) (read_plain n s.stream) (fun _ => Raises.ok _)
      (fun _ _ h => by cases h; exact hlen) fun _ _ h hn => hn ▸ s.room_of_read h) hexec

theorem hasEnd_bsRead1 : HasEnd .bsRead1 s :=
  hasEnd_cleanRead s (by decide) (Nat.le_refl 1) (1 : Nat) (fun v => (v : Int)) fun b => exec_bsRead1 (s.rebuf b)

theorem hasEnd_bsReadn : HasEnd .bsReadn s :=
  hasEnd_cleanRead s (by decide) (Nat.le_refl 1) (s.argInt 0) (fun v => (v : Int)) fun b => exec_bsReadn (s.rebuf b)

/-! ### Decode commands: the errors after the first bit are dirty -/

/-- A decode command of 41 or 42 that reads one element. -/
theorem hasEnd_readReport {i : Instr} {ws : WriteSet} (hws : dirtyWrites i = some ws) (hi : i ∈ readInstrs)
    {α β : Type} {x : Except Err β} (hx : Raises Err.Plain x) {d : β → Stream → Except Err (α × Stream)}
    (hd : ∀ c, IsReader (d c)) (hraise : ∀ c st, Raises Err.OfStream (d c st)) {f : α → Except Err (List Int)}
    (hf : ∀ a, Raises Err.OfStream (f a)) (hlen : ∀ a rs, f a = .ok rs → rs.length ≤ resCount i)
    (hexec : ∀ b, exec i (s.rebuf b) = .next ((s.rebuf b).decodeCommand ws x fun c =>
      (s.rebuf b).readReport (d c) f)) : HasEnd i s :=
  HasEnd.decode (body := fun c t => t.readReport (d c) f) hws hx (fun c _ hroom =>
    BodyEnds.readReport hi (hd c) (hraise c s.stream) hf hlen fun _ _ _ hn => hn ▸ hroom.mono (Nat.zero_le 1)) hexec

theorem hasEnd_ctDec : HasEnd .ctDec s :=
  hasEnd_readReport s (d := fun c => vlcWalk (ctTable c)) rfl (by decide)
    ((ncClass_raises (s.argInt 2)).mono fun _ he => he ▸ Err.plain_badOperand) (fun c => IsReader.vlcWalk _)
    (fun c => vlcWalk_raises _) (fun _ => Raises.ok _) (fun _ _ h => by cases h; exact Nat.le_refl 2)
    fun b => exec_ctDec (s.rebuf b)

/-- TZ4_DEC, TZC2_DEC and TZC4_DEC. -/
theorem hasEnd_totalZerosDec {i : Instr} (hws : dirtyWrites i = some (decodeWrites 1)) (hi : i ∈ readInstrs)
    (hlen : 1 ≤ resCount i) (n : Nat) (tbl : Nat → VlcTable Nat)
    (hexec : ∀ t, exec i t = .next (t.totalZerosDec n tbl)) : HasEnd i s :=
  hasEnd_readReport s (x := require (within 1 n (s.argInt 1)) .tableMiss)
    (d := fun _ => vlcWalk (tbl (s.argInt 1).toNat)) (f := fun tz => .ok [(tz : Int)]) hws hi
    (Raises.require Err.plain_tableMiss) (fun _ => IsReader.vlcWalk _) (fun _ => vlcWalk_raises _)
    (fun _ => Raises.ok _) (fun _ _ h => by cases h; exact hlen) fun b => hexec (s.rebuf b)

theorem hasEnd_tz4Dec : HasEnd .tz4Dec s := hasEnd_totalZerosDec s rfl (by decide) (Nat.le_refl 1) 15 tz4 exec_tz4Dec

theorem hasEnd_tzc2Dec : HasEnd .tzc2Dec s :=
  hasEnd_totalZerosDec s rfl (by decide) (Nat.le_refl 1) 3 tz22 exec_tzc2Dec

theorem hasEnd_tzc4Dec : HasEnd .tzc4Dec s :=
  hasEnd_totalZerosDec s rfl (by decide) (Nat.le_refl 1) 7 tz24 exec_tzc4Dec

theorem runValue_raises (zl : Int) (rb : Nat) : Raises Err.OfStream (runValue zl rb) :=
  (Raises.ok _).ite (Raises.error Err.ofStream_tableMiss)

theorem runValue_length {zl : Int} {rb : Nat} {rs : List Int} (h : runValue zl rb = .ok rs) : rs.length ≤ 1 := by
  unfold runValue at h
  split at h
  · cases h; exact Nat.le_refl 1
  · cases h

theorem hasEnd_rbDec : HasEnd .rbDec s :=
  hasEnd_readReport s (x := require (decide (1 ≤ s.argInt 1)) .tableMiss)
    (d := fun _ => vlcWalk (rbTable (s.argInt 1).toNat)) (f := runValue (s.argInt 1)) rfl (by decide)
    (Raises.require Err.plain_tableMiss) (fun _ => IsReader.vlcWalk _) (fun _ => vlcWalk_raises _)
    (runValue_raises _) (fun _ _ => runValue_length) fun b => exec_rbDec (s.rebuf b)

theorem hasEnd_pfxDec : HasEnd .pfxDec s :=
  hasEnd_readReport s (x := .ok ()) (d := fun _ => countZeros 32) (f := fun v => .ok [(v : Int)]) rfl (by decide)
    (Raises.ok ()) (fun _ => IsReader.countZeros 32) (fun _ => countZeros_raises 32) (fun _ => Raises.ok _)
    (fun _ _ h => by cases h; exact Nat.le_refl 1) fun b => exec_pfxDec (s.rebuf b)

theorem State.ueReport_eq_readReport (f : Nat → Except Err Int) :
    s.ueReport f = s.readReport ueDecode fun v => (f v).bind fun x => .ok [x] := by
  unfold State.ueReport State.readReport
  cases ueDecode s.stream with
  | error e => rfl
  | ok p =>
    change (f p.1).bind _ = ((f p.1).bind _).bind _
    cases f p.1 <;> rfl

/-- A decode command of ue(v), whose value `f` maps or refuses. -/
theorem hasEnd_ueReport {i : Instr} (hws : dirtyWrites i = some (decodeWrites 1)) (hi : i ∈ readInstrs)
    (hlen : 1 ≤ resCount i) {x : Except Err Unit} (hx : Raises Err.Plain x) {f : Nat → Except Err Int}
    (hf : ∀ v, Raises Err.OfStream (f v))
    (hexec : ∀ b, exec i (s.rebuf b) = .next ((s.rebuf b).decodeCommand (decodeWrites 1) x fun _ =>
      (s.rebuf b).ueReport f)) : HasEnd i s := by
  refine hasEnd_readReport s (d := fun _ => ueDecode) (f := fun v => (f v).bind fun x => .ok [x]) hws hi hx
    (fun _ => IsReader.ueDecode) (fun _ => ueDecode_raises) (fun v => (hf v).bind fun _ _ => Raises.ok _)
    (fun v rs h => ?_) fun b => ?_
  · obtain ⟨x, -, hrs⟩ := except_bind_eq_ok_iff.mp h
    cases hrs
    exact hlen
  · rw [hexec b, State.ueReport_eq_readReport]

theorem teValue_raises (cmax : Int) (v : Nat) : Raises Err.OfStream (teValue cmax v) :=
  (Raises.ok _).ite (Raises.error Err.ofStream_tableMiss)

theorem cbpValue_raises (f : Bool) (k : Nat) : Raises Err.OfStream (cbpValue f k) :=
  (Raises.ok _).ite (Raises.error Err.ofStream_tableMiss)

theorem hasEnd_ueDec : HasEnd .ueDec s :=
  hasEnd_ueReport s (x := .ok ()) rfl (by decide) (Nat.le_refl 1) (Raises.ok ()) (fun _ => Raises.ok _) fun b =>
    exec_ueDec (s.rebuf b)

theorem hasEnd_seDec : HasEnd .seDec s :=
  hasEnd_ueReport s (x := .ok ()) rfl (by decide) (Nat.le_refl 1) (Raises.ok ()) (fun _ => Raises.ok _) fun b =>
    exec_seDec (s.rebuf b)

theorem hasEnd_cbpDec : HasEnd .cbpDec s :=
  hasEnd_ueReport s (x := require (decide (s.argInt 1 = 0 ∨ s.argInt 1 = 1)) .badOperand)
    (f := cbpValue (decide (s.argInt 1 = 1))) rfl (by decide) (Nat.le_refl 1)
    (Raises.require Err.plain_badOperand) (cbpValue_raises _) fun b => exec_cbpDec (s.rebuf b)

/-- TE_DEC, by its range: no range, one bit, or ue(v). -/
theorem hasEnd_teDec : HasEnd .teDec s := by
  rcases lt_trichotomy (s.argInt 1) 1 with h | h | h
  · exact HasEnd.of_fail nofun Err.plain_badOperand fun b _ =>
      (exec_teDec_of_badRange (s := s.rebuf b) h).trans (congrArg _ (State.fail_eq_endsClean _ .badOperand).symm)
  · exact hasEnd_cleanRead s (by decide) (Nat.le_refl 1) (1 : Nat) (fun v => 1 - (v : Int)) fun b =>
      exec_teDec_of_one (s := s.rebuf b) h
  · exact hasEnd_ueReport s (x := .ok ()) (f := teValue (s.argInt 1)) rfl (by decide) (Nat.le_refl 1) (Raises.ok ())
      (teValue_raises _) fun b => exec_teDec_of_two_le (s := s.rebuf b) h

end

end Sys2Proof.Machine
end

section
/-! PROOFS. The ends of the CAVLC and the macroblock commands, and so of every command (60 R410, R411, R408). -/

namespace Sys2Proof.Machine

section
variable (s : State)

/-! ### CAVLC_DEC4 and CAVLC_DEC2 -/

theorem check4_raises : Raises Err.Plain (check4 s) :=
  Raises.check Err.plain_badOperand fun _ => Raises.require Err.plain_badOperand

theorem check2_raises : Raises Err.Plain (check2 s) :=
  Raises.check Err.plain_badOperand fun _ => Raises.require Err.plain_badOperand

/-- A block decoded, put in CB by `put`, and reported. -/
theorem blockDecode_ends {i : Instr} {maxN : Nat} {nc : Int} (hnc : -2 ≤ nc) (put : List Int → Vec16) (hroom : s.Room 1)
    (heffect : ∀ cs n (rs : List Int), rs.length ≤ 3 → s.Room n →
      Effect s i ({ s.advance n with cb := put cs }.setResList 0 rs) []) :
    BodyEnds s Err.OfStream (Effect s i) fun t => (cavlcDecode maxN nc t.stream).bind fun p =>
      .ok ({ t.setStream p.2 with cb := put p.1.coeffs }.reportBlock p.1.bits p.1.tc p.1.t1) :=
  BodyEnds.read (IsReader.cavlcDecode maxN nc)
    (body := fun d st t => .ok ({ t.setStream st with cb := put d.coeffs }.reportBlock d.bits d.tc d.t1))
    (cavlcDecode_raises hnc s.stream) fun d n _ hn => BodyEnds.ok
      (heffect d.coeffs n [(d.bits : Int), (d.tc : Int), (d.t1 : Int)] (Nat.le_refl 3)
        (hn.elim (fun h0 => h0 ▸ hroom.mono (Nat.zero_le 1)) id)) fun b =>
          congrArg _ (State.rebuf_setResList { s.advance n with cb := put d.coeffs } b 0 _)

theorem hasEnd_cavlcDec4 : HasEnd .cavlcDec4 s :=
  HasEnd.decode (x := check4 s) (body := fun _ t =>
    (cavlcDecode (16 - (s.argInt 1).toNat) (s.argInt 0) t.stream).bind fun p =>
      .ok ({ t.setStream p.2 with cb := unscan p.1.coeffs (s.argInt 1).toNat }.reportBlock p.1.bits p.1.tc p.1.t1))
    rfl (check4_raises s) (fun _ h hroom => by
      obtain ⟨hnc, -⟩ := check4_eq_ok_iff.mp h
      exact blockDecode_ends s (by omega) (fun cs => unscan cs (s.argInt 1).toNat) hroom
        fun cs n rs hrs hn => Effect.block4 _ hrs hn) fun _ => rfl

theorem hasEnd_cavlcDec2 : HasEnd .cavlcDec2 s :=
  HasEnd.decode (x := check2 s) (body := fun _ t => (cavlcDecode 4 (-1) t.stream).bind fun p =>
      .ok ({ t.setStream p.2 with cb := fillVec s.cb 4 fun k => toWord (p.1.coeffs.getD k 0) }.reportBlock
        p.1.bits p.1.tc p.1.t1))
    rfl (check2_raises s) (fun _ _ hroom =>
      blockDecode_ends s (by decide) (fun cs => fillVec s.cb 4 fun k => toWord (cs.getD k 0)) hroom
        fun cs n rs hrs hn => Effect.block2 _ hrs hn) fun _ => rfl

/-! ### CAVLC_ENC4 and CAVLC_ENC2 -/

/-- The block written and reported, once its first codeword has been seen to fit. -/
theorem encodeBlock_ends {i : Instr} (hi : i ∈ writeInstrs) (hres : 3 ≤ resCount i) {cs : List Int} {maxN : Nat} {nc : Int}
    (hnc : -2 ≤ nc) : BodyEnds s Err.OfStream (Effect s i) fun t => t.encodeBlock cs maxN nc := by
  have hw := cavlcItems_writable cs maxN nc
  have hblock (t : State) := t.encodeBlock_eq cs maxN nc
  obtain ⟨bs, raise, hrun⟩ : ∃ bs raise, itemsRun (cavlcItems cs maxN nc) = (bs, raise) := ⟨_, _, rfl⟩
  have hwrite (b : List Host.Cell) := Stream.writeItems_eq hw (s.rebuf b).stream
  rw [hrun] at hwrite
  by_cases hroom : bs = [] ∨ s.Room bs.length
  · have hfit (b : List Host.Cell) : bs = [] ∨ (s.rebuf b).stream.pos + bs.length ≤ (s.rebuf b).stream.len := hroom
    cases raise with
    | none =>
      have hbits := itemsBits_eq_some_iff.mpr hrun
      have hroom' : s.Room bs.length := hroom.resolve_left fun h => by
        have := cavlcItems_bits_pos hbits
        simp [h] at this
      refine BodyEnds.ok (Effect.write (rs := blockResults cs bs) hi hres hroom') fun b => ?_
      have hroom'' : (s.rebuf b).Room bs.length := hroom'
      rw [State.encodeBlock_of_bits hbits hroom'']
      exact congrArg _ (State.rebuf_setResList (s.advance _) _ 0 _)
    | some e =>
      refine .inl ⟨e, ?_, fun b _ => ?_⟩
      · rw [cavlcItems_raisesCodec hnc e (mem_of_itemsRun hrun)]
        exact Err.ofStream_codecError
      · change (s.rebuf b).encodeBlock cs maxN nc = _
        rw [hblock, hwrite, if_pos (hfit b)]
        rfl
  · refine .inl ⟨.streamOverflow, Err.ofStream_streamOverflow, fun b _ => ?_⟩
    have hfit : ¬ (bs = [] ∨ (s.rebuf b).stream.pos + bs.length ≤ (s.rebuf b).stream.len) := hroom
    change (s.rebuf b).encodeBlock cs maxN nc = _
    rw [hblock, hwrite, if_neg hfit]
    rfl

/-- A CAVLC encode command. -/
theorem hasEnd_encodeCommand {i : Instr} (hi : i ∈ writeInstrs) (hres : 3 ≤ resCount i)
    (hws : dirtyWrites i = some (cavlcWrites true 0)) {x : Except Err Unit} (hx : Raises Err.Plain x) {cs : List Int}
    {maxN : Nat} {nc : Int} (hnc : x = .ok () → -2 ≤ nc)
    (hexec : ∀ b, exec i (s.rebuf b) = .next ((s.rebuf b).encodeCommand x cs maxN nc)) : HasEnd i s := by
  have hne : i ≠ .clrerr := fun h => absurd hi (h ▸ by decide)
  cases x with
  | error e => exact HasEnd.of_fail hne (hx e rfl) fun b _ => hexec b
  | ok u =>
    have hnc := hnc rfl
    obtain ⟨rest, hcons⟩ := cavlcItems_eq_cons cs maxN nc
    cases hc : codecStep (coeffToken (totalCoeff cs) (trailingOnes cs) nc) with
    | error e =>
      rw [hc] at hcons
      have he : e = .codecError := cavlcItems_raisesCodec hnc e (hcons ▸ List.mem_cons_self)
      refine HasEnd.of_fail hne (e := e) (he ▸ nofun) fun b _ => (hexec b).trans (congrArg _ ?_)
      rw [State.encodeCommand, hcons]
      rfl
    | ok c =>
      obtain ⟨hpos, hlen⟩ := coeffToken_writable hc
      rw [hc] at hcons
      have hfirst (b : List Host.Cell) := State.firstWrite_ok (s.rebuf b) c rest hlen
      by_cases hroom : s.Room c.len
      · have hcommand (b : List Host.Cell) : exec i (s.rebuf b) = .next ((s.rebuf b).dirtyCommand (cavlcWrites true 0)
            (.ok ()) fun _ => (s.rebuf b).encodeBlock cs maxN nc) := by
          have hroom' : (s.rebuf b).bsPos.toNat + c.len ≤ (s.rebuf b).bsLen.toNat := hroom
          rw [hexec b, State.encodeCommand, hcons, hfirst, if_pos hroom']
          rfl
        rcases encodeBlock_ends s hi hres (cs := cs) (maxN := maxN) hnc with ⟨e, he, hb⟩ | ⟨v, bs, hv, hb⟩
        · refine ⟨_, _, .dirty hws he (hroom.mono hpos), fun b h => (hcommand b).trans (congrArg _ ?_)⟩
          have hblock : (s.rebuf b).encodeBlock cs maxN nc = .error e := hb b h
          rw [State.dirtyCommand, State.command, hblock]
          exact congrArg (State.fail · e) (State.rebuf_spoil s b _)
        · exact HasEnd.of_done hv fun b h => (hcommand b).trans (congrArg _ (State.dirtyCommand_ok rfl (hb b h)))
      · refine HasEnd.of_fail hne Err.plain_streamOverflow fun b _ => (hexec b).trans (congrArg _ ?_)
        have hroom' : ¬ (s.rebuf b).bsPos.toNat + c.len ≤ (s.rebuf b).bsLen.toNat := hroom
        rw [State.encodeCommand, hcons, hfirst, if_neg hroom']
        rfl

theorem hasEnd_cavlcEnc4 : HasEnd .cavlcEnc4 s :=
  hasEnd_encodeCommand s (cs := scanList s.cb (s.argInt 1).toNat) (maxN := 16 - (s.argInt 1).toNat)
    (nc := s.argInt 0) (by decide) (Nat.le_refl 3) rfl (check4_raises s) (fun h => by
    obtain ⟨hnc, -⟩ := check4_eq_ok_iff.mp h
    omega) fun _ => rfl

theorem hasEnd_cavlcEnc2 : HasEnd .cavlcEnc2 s :=
  hasEnd_encodeCommand s (cs := rasterList s.cb) (maxN := 4) (nc := -1) (by decide) (Nat.le_refl 3) rfl
    (check2_raises s) (fun _ => by decide) fun _ => rfl

/-! ### MB_ENCODE and MB_DECODE -/

/-- A macroblock command: clean errors of the check phase, and MbFailure after it (45 R339; 60 R408). -/
theorem hasEnd_mbCommand {i : Instr} {pout : Bool} (hi : i = if pout then .mbDecode else .mbEncode) {α : Type}
    {ws : α → WriteSet} {x : Except Err α} {body : α → State → Except Err State} (hx : Raises Err.Plain x)
    (hready : ∀ a, x = .ok a → s.OnGrid ∧ ws a = mbWrites s.mArg pout)
    (hbody : ∀ a, x = .ok a → BodyEnds s (fun _ => True) (Effect s i) (body a))
    (hexec : ∀ b, exec i (s.rebuf b) = .next ((s.rebuf b).mbCommand ws x fun a => body a (s.rebuf b))) : HasEnd i s := by
  cases x with
  | error e =>
    have hne : i ≠ .clrerr := by
      cases pout <;> exact hi ▸ nofun
    exact HasEnd.of_fail hne (hx e rfl) fun b _ => hexec b
  | ok a =>
    obtain ⟨hgrid, hws⟩ := hready a rfl
    rcases hbody a rfl with ⟨e, -, hb⟩ | ⟨u, bs, hu, hb⟩
    · refine ⟨_, _, .failed (e := e) hi hgrid, fun b h => (hexec b).trans (congrArg _ ?_)⟩
      rw [State.mbCommand, State.command, hb b h, hws]
      exact congrArg (State.failMb · e) (State.rebuf_spoil s b _)
    · refine HasEnd.of_done hu fun b h => (hexec b).trans (congrArg _ ?_)
      rw [State.mbCommand, State.command, hb b h]

end

end Sys2Proof.Machine
end

section
/-! PROOFS. The bodies of MB_ENCODE and MB_DECODE (45 R375, R376), and the end of every command. -/

namespace Sys2Proof.Machine

/-! ### What a macroblock's code depends on -/

/-- The record store and the grid's width are all that a macroblock's context is taken from (45 R323 to R328, R340). -/
def State.SameMbs (s t : State) : Prop := t.mbs = s.mbs ∧ t.gridW = s.gridW

section
variable {s t : State} (h : s.SameMbs t)
include h

theorem State.SameMbs.nc (r : MbRecord) (m : Nat) (c : Comp) (b : Nat) : t.nc r m c b = s.nc r m c b := by
  obtain ⟨hmbs, hw⟩ := h
  cases s
  cases t
  cases hmbs
  cases hw
  rfl

theorem State.SameMbs.mvp (m : Nat) (slice : Word) : t.mvp m slice = s.mvp m slice := by
  obtain ⟨hmbs, hw⟩ := h
  cases s
  cases t
  cases hmbs
  cases hw
  rfl

theorem State.SameMbs.qpPred (m : Nat) (slice : Word) (qp : Int) : t.qpPred m slice qp = s.qpPred m slice qp := by
  obtain ⟨hmbs, -⟩ := h
  cases s
  cases t
  cases hmbs
  rfl

theorem State.SameMbs.blockItems (m : Nat) (l : List (Comp × Nat)) (r : MbRecord) :
    blockItems t m l r = blockItems s m l r := by
  induction l generalizing r with
  | nil => rfl
  | cons cb rest ih =>
    obtain ⟨c, b⟩ := cb
    simp only [Machine.blockItems, h.nc, ih]

theorem State.SameMbs.residualItems (m cl cc : Nat) (r : MbRecord) :
    residualItems t m cl cc r = residualItems s m cl cc r := by
  simp only [Machine.residualItems, lumaDcItems, h.blockItems, h.nc]

theorem State.SameMbs.layerItems (a : EncodeArgs) (r : MbRecord) : layerItems t a r = layerItems s a r := by
  simp only [Machine.layerItems, predictionItems, h.residualItems, h.mvp, h.qpPred]

theorem State.SameMbs.decodeBlocks (m : Nat) (l : List (Comp × Nat)) (r : MbRecord) (st : Stream) :
    decodeBlocks t m l r st = decodeBlocks s m l r st := by
  induction l generalizing r st with
  | nil => rfl
  | cons cb rest ih =>
    obtain ⟨c, b⟩ := cb
    simp only [decodeBlocks_cons, h.nc, ih]

theorem State.SameMbs.decodeMbResidual (m cl cc : Nat) (r : MbRecord) (st : Stream) :
    decodeMbResidual t m cl cc r st = decodeMbResidual s m cl cc r st := by
  simp only [Machine.decodeMbResidual, decodeLumaDc, h.decodeBlocks, h.nc]

theorem State.SameMbs.decodeLayer (a : DecodeArgs) : decodeLayer t a = decodeLayer s a := by
  funext st
  simp only [decodeLayer_eq, decodePrediction_eq, decodeTail, h.decodeMbResidual, h.mvp, h.qpPred]

end

theorem State.sameMbs_rebuf (s : State) (b : List Host.Cell) : s.SameMbs (s.rebuf b) := ⟨rfl, rfl⟩

/-! ### MB_ENCODE -/

/-- The record of MB_ENCODE before its macroblock_layer is written (45 R350, R345, R335). -/
def formRecord (s : State) (a : EncodeArgs) : Except Err MbRecord :=
  (encodeTransform s a (encodeRecord a)).bind fun r₁ =>
    (setType a.st (boolInt a.intra) a.pm (codedBlockPattern r₁)).bind fun t =>
      .ok { r₁ with cbp := toWord (codedBlockPattern r₁), mbType := toWord t }

theorem formRecord_eq_ok_iff {s : State} {r : MbRecord} : formRecord s s.encodeArgs = .ok r ↔ s.Forms r := by
  constructor
  · intro h
    obtain ⟨r₁, h₁, h⟩ := except_bind_eq_ok_iff.mp h
    obtain ⟨t, ht, h⟩ := except_bind_eq_ok_iff.mp h
    exact ⟨r₁, t, h₁, ht, (Except.ok.inj h).symm⟩
  · rintro ⟨r₁, t, h₁, ht, rfl⟩
    rw [formRecord, h₁, except_ok_bind, ht]
    rfl

/-- What MB_ENCODE does with the record `r`: its macroblock_layer written, its record kept and reported (45 R352, R375). -/
def writeRecord (s : State) (a : EncodeArgs) (r : MbRecord) : Except Err State :=
  (s.stream.writeItems (layerItems s a r).1).bind fun st =>
    .ok (((s.setStream st).setRecord a.m (layerItems s a r).2.coded).setResList 0
      (mbResults (st.pos - s.stream.pos) (layerItems s a r).2.coded))

theorem encodeBody_eq (s : State) (a : EncodeArgs) : encodeBody s a = (formRecord s a).bind (writeRecord s a) := by
  have hbody : encodeBody s a = (encodeTransform s a (encodeRecord a)).bind fun r₁ =>
      (setType a.st (boolInt a.intra) a.pm (codedBlockPattern r₁)).bind fun t =>
        writeRecord s a { r₁ with cbp := toWord (codedBlockPattern r₁), mbType := toWord t } := rfl
  rw [hbody, formRecord]
  cases encodeTransform s a (encodeRecord a) with
  | error e => rfl
  | ok r₁ =>
    simp only [except_ok_bind]
    cases setType a.st (boolInt a.intra) a.pm (codedBlockPattern r₁) <;> rfl

theorem decodeBody_eq (s : State) (a : DecodeArgs) : decodeBody s a = (decodeLayer s a s.stream).bind fun q =>
    (reconstruct s.cfg q.1).bind fun p => .ok ((((s.setStream q.2).writeViews a.m p).setRecord a.m q.1.coded).setResList 0
      (mbResults (q.2.pos - s.stream.pos) q.1.coded)) := rfl

/-! ### The bits of a macroblock_layer can be written -/

theorem ueCodeword_writable {v : Nat} {c : Codeword} (h : ueCodeword v = .ok c) : 0 < c.len ∧ c.len ≤ 32 := by
  refine ⟨?_, (ueCodeword_emittable v).1 c h⟩
  rcases Nat.lt_or_ge 65534 v with hv | hv
  · rw [ueCodeword_of_gt hv] at h
    cases h
  · rw [ueCodeword_of_le hv] at h
    cases h
    rw [ueBits_length]
    exact Nat.succ_pos _

theorem cbpCodeword_writable {intra : Bool} {p : Int} {c : Codeword} (h : cbpCodeword intra p = .ok c) :
    0 < c.len ∧ c.len ≤ 32 := by
  obtain ⟨_, -, h⟩ := except_bind_eq_ok_iff.mp h
  exact ueCodeword_writable h

theorem blockItems_writable (s : State) (m : Nat) (l : List (Comp × Nat)) (r : MbRecord) :
    Writable (blockItems s m l r).1 := by
  induction l generalizing r with
  | nil => exact Writable.nil
  | cons cb rest ih => exact (cavlcItems_writable _ _ _).append (ih _)

theorem residualItems_writable (s : State) (m cl cc : Nat) (r : MbRecord) : Writable (residualItems s m cl cc r).1 := by
  have hdc : Writable (lumaDcItems s m r) := by
    unfold lumaDcItems
    split
    · exact cavlcItems_writable _ _ _
    · exact Writable.nil
  have hchroma : Writable ((codedChromaDc cc).flatMap fun c => cavlcItems (rasterList (r.dcc c)) 4 (-1)) := by
    intro c hc
    obtain ⟨comp, -, h⟩ := List.mem_flatMap.mp hc
    exact cavlcItems_writable _ _ _ c h
  exact ((hdc.append (blockItems_writable _ _ _ _)).append hchroma).append (blockItems_writable _ _ _ _)

theorem predictionItems_writable (s : State) (a : EncodeArgs) (r : MbRecord) : Writable (predictionItems s a r).1 := by
  unfold predictionItems
  split
  · exact Writable.single fun _ => ueCodeword_writable
  · dsimp only
    split
    · exact (Writable.single fun _ => cbpCodeword_writable).cons (fun _ => ueCodeword_writable) |>.cons
        fun _ => ueCodeword_writable
    · exact Writable.error _

theorem layerItems_writable (s : State) (a : EncodeArgs) (r : MbRecord) : Writable (layerItems s a r).1 := by
  have hhead : Writable (ueCodeword r.mbType.toNat :: (predictionItems s a r).1) :=
    (predictionItems_writable s a r).cons fun _ => ueCodeword_writable
  unfold layerItems
  dsimp only
  split
  · exact (hhead.append (Writable.single fun _ => ueCodeword_writable)).append (residualItems_writable _ _ _ _ _)
  · exact hhead

/-- A macroblock_layer starts with mb_type. -/
theorem layerItems_eq_cons (s : State) (a : EncodeArgs) (r : MbRecord) :
    ∃ rest, (layerItems s a r).1 = ueCodeword r.mbType.toNat :: rest := by
  unfold layerItems
  dsimp only
  split
  · exact ⟨_, rfl⟩
  · exact ⟨_, rfl⟩

theorem layerItems_bits_pos {s : State} {a : EncodeArgs} {r : MbRecord} {bs : List Bool}
    (h : itemsBits (layerItems s a r).1 = some bs) : 0 < bs.length := by
  obtain ⟨rest, heq⟩ := layerItems_eq_cons s a r
  have hw := layerItems_writable s a r
  rw [heq] at h hw
  exact itemsBits_ne_nil hw h

/-! ### The ends of MB_ENCODE and MB_DECODE -/

section
variable (s : State)

theorem encodeBody_ends (hready : s.EncodeReady) :
    BodyEnds s (fun _ => True) (Effect s .mbEncode) fun t => encodeBody t s.encodeArgs := by
  have hbody (b : List Host.Cell) : encodeBody (s.rebuf b) s.encodeArgs = (formRecord s s.encodeArgs).bind fun r =>
      ((s.rebuf b).stream.writeItems (layerItems s s.encodeArgs r).1).bind fun st =>
        .ok ((((s.rebuf b).setStream st).setRecord s.mArg (layerItems s s.encodeArgs r).2.coded).setResList 0
          (mbResults (st.pos - s.stream.pos) (layerItems s s.encodeArgs r).2.coded)) := by
    rw [encodeBody_eq]
    unfold writeRecord
    simp only [(s.sameMbs_rebuf b).layerItems]
    rfl
  cases hr : formRecord s s.encodeArgs with
  | error e =>
    refine .inl ⟨e, trivial, fun b _ => (hbody b).trans ?_⟩
    rw [hr]
    rfl
  | ok r =>
    obtain ⟨bs, raise, hrun⟩ : ∃ bs raise, itemsRun (layerItems s s.encodeArgs r).1 = (bs, raise) := ⟨_, _, rfl⟩
    have hwrite (b : List Host.Cell) := Stream.writeItems_eq (layerItems_writable s s.encodeArgs r) (s.rebuf b).stream
    rw [hrun] at hwrite
    by_cases hroom : bs = [] ∨ s.Room bs.length
    · have hfit (b : List Host.Cell) : bs = [] ∨ (s.rebuf b).stream.pos + bs.length ≤ (s.rebuf b).stream.len := hroom
      cases raise with
      | none =>
        have hbits := itemsBits_eq_some_iff.mpr hrun
        have hroom' : s.Room bs.length := hroom.resolve_left fun h => by
          have := layerItems_bits_pos hbits
          simp [h] at this
        refine BodyEnds.ok (Effect.encode hready (formRecord_eq_ok_iff.mp hr) hbits hroom') fun b => (hbody b).trans ?_
        rw [hr, except_ok_bind, hwrite, if_pos (hfit b)]
        have hpos : ((s.rebuf b).stream.put bs).pos - s.stream.pos = bs.length := by
          rw [Stream.put_pos]
          exact Nat.add_sub_cancel_left ..
        change Except.ok _ = _
        rw [hpos]
        exact congrArg _ (State.rebuf_setResList ((s.advance bs.length).setRecord s.mArg _) _ 0 _)
      | some e =>
        refine .inl ⟨e, trivial, fun b _ => (hbody b).trans ?_⟩
        rw [hr, except_ok_bind, hwrite, if_pos (hfit b)]
        rfl
    · refine .inl ⟨.streamOverflow, trivial, fun b _ => (hbody b).trans ?_⟩
      have hfit : ¬ (bs = [] ∨ (s.rebuf b).stream.pos + bs.length ≤ (s.rebuf b).stream.len) := hroom
      rw [hr, except_ok_bind, hwrite, if_neg hfit]
      rfl

theorem encodeCheck_rebuf (b : List Host.Cell) : encodeCheck (s.rebuf b) = encodeCheck s := rfl

theorem decodeCheck_rebuf (b : List Host.Cell) : decodeCheck (s.rebuf b) = decodeCheck s := rfl

theorem State.rebuf_setRecord (b : List Host.Cell) (m : Nat) (r : MbRecord) :
    (s.rebuf b).setRecord m r = (s.setRecord m r).rebuf b := rfl

theorem State.leaves_nil (u : State) (b : List Host.Cell) : (s.rebuf b).leaves u [] = u.rebuf b := rfl

theorem hasEnd_mbEncode : HasEnd .mbEncode s :=
  hasEnd_mbCommand s (pout := false) rfl (ws := fun a => mbWrites a.m false) (x := encodeCheck s)
    (body := fun a t => encodeBody t a) (encodeCheck_raises s) (fun a ha => by
      obtain ⟨hready, rfl⟩ := encodeCheck_eq_ok_iff.mp ha
      exact ⟨hready.1, rfl⟩) (fun a ha => by
      obtain ⟨hready, rfl⟩ := encodeCheck_eq_ok_iff.mp ha
      exact encodeBody_ends s hready) fun b => by
      rw [exec_mbEncode, encodeCheck_rebuf]

/-- A macroblock_layer that is decoded starts with a codeword for mb_type. -/
theorem decodeLayer_room {a : DecodeArgs} {r : MbRecord} {st : Stream} (h : decodeLayer s a s.stream = .ok (r, st)) :
    s.Room 1 := by
  rw [decodeLayer_eq] at h
  obtain ⟨⟨v, st₁⟩, hv, -⟩ := except_bind_eq_ok_iff.mp h
  obtain ⟨-, hholds, -⟩ := ueDecode_eq_ok_iff.mp hv
  exact State.ueBits_room (State.holds_iff_stream.mpr hholds)

theorem decodeBody_ends (hready : s.DecodeReady) :
    BodyEnds s (fun _ => True) (Effect s .mbDecode) fun t => decodeBody t s.decodeArgs := by
  have hbody : (fun t : State => decodeBody t s.decodeArgs) = fun t => (decodeLayer t s.decodeArgs t.stream).bind fun q =>
      (reconstruct t.cfg q.1).bind fun p => .ok ((((t.setStream q.2).writeViews s.mArg p).setRecord s.mArg
        q.1.coded).setResList 0 (mbResults (q.2.pos - t.stream.pos) q.1.coded)) :=
    funext fun t => decodeBody_eq t s.decodeArgs
  have hread := BodyEnds.read (s := s) (P := fun _ => True) (Q := Effect s .mbDecode)
    (IsReader.decodeLayer s s.decodeArgs)
    (body := fun r st t => (reconstruct s.cfg r).bind fun p => .ok ((((t.setStream st).writeViews s.mArg p).setRecord
      s.mArg r.coded).setResList 0 (mbResults (st.pos - t.stream.pos) r.coded)))
    (fun _ _ => trivial) fun r n hlayer hn => BodyEnds.bind
      (body := fun p t => .ok ((((t.setStream (t.stream.skip n)).writeViews s.mArg p).setRecord
        s.mArg r.coded).setResList 0 (mbResults ((t.stream.skip n).pos - t.stream.pos) r.coded)))
      (fun _ _ => trivial) fun p hp => by
      have hroom : s.Room n := hn.elim (fun h0 => h0 ▸ (decodeLayer_room s hlayer).mono (Nat.zero_le 1)) id
      refine BodyEnds.ok (Effect.decode hready hlayer hp hroom) fun b => congrArg _ ?_
      have hpos : ((s.rebuf b).stream.skip n).pos - (s.rebuf b).stream.pos = n := Nat.add_sub_cancel_left ..
      have hviews : ((s.rebuf b).setStream ((s.rebuf b).stream.skip n)).writeViews s.mArg p =
          ((s.advance n).writeViews s.mArg p).rebuf b := State.rebuf_writeViews (s.advance n) b s.mArg p
      rw [hpos, hviews, State.rebuf_setRecord, State.rebuf_setResList, State.leaves_nil]
  rcases hread with ⟨e, he, hb⟩ | ⟨u, bs, hu, hb⟩
  · refine .inl ⟨e, he, fun b hs => ?_⟩
    rw [hbody, ← hb b hs]
    simp only [(s.sameMbs_rebuf b).decodeLayer]
    rfl
  · refine .inr ⟨u, bs, hu, fun b hs => ?_⟩
    rw [hbody, ← hb b hs]
    simp only [(s.sameMbs_rebuf b).decodeLayer]
    rfl

theorem hasEnd_mbDecode : HasEnd .mbDecode s :=
  hasEnd_mbCommand s (pout := true) rfl (ws := fun a => mbWrites a.m true) (x := decodeCheck s)
    (body := fun a t => decodeBody t a) (decodeCheck_raises s) (fun a ha => by
      obtain ⟨hready, rfl⟩ := decodeCheck_eq_ok_iff.mp ha
      exact ⟨hready.1, rfl⟩) (fun a ha => by
      obtain ⟨hready, rfl⟩ := decodeCheck_eq_ok_iff.mp ha
      exact decodeBody_ends s hready) fun b => by
      rw [exec_mbDecode, decodeCheck_rebuf]

/-! ### Every command -/

/-- Every command has one of its ends. -/
theorem hasEnd (i : Instr) : HasEnd i s :=
  match i with
  | .nop => hasEnd_nop s
  | .clrerr => hasEnd_clrerr s
  | .bsBind => hasEnd_bsBind s
  | .bsReset => hasEnd_bsReset s
  | .bsRead1 => hasEnd_bsRead1 s
  | .bsReadn => hasEnd_bsReadn s
  | .bsWrite => hasEnd_bsWrite s
  | .ueEnc => hasEnd_ueEnc s
  | .ueDec => hasEnd_ueDec s
  | .seEnc => hasEnd_seEnc s
  | .seDec => hasEnd_seDec s
  | .teEnc => hasEnd_teEnc s
  | .teDec => hasEnd_teDec s
  | .ctEnc => hasEnd_ctEnc s
  | .ctDec => hasEnd_ctDec s
  | .tz4Enc => hasEnd_tz4Enc s
  | .tz4Dec => hasEnd_tz4Dec s
  | .tzc2Enc => hasEnd_tzc2Enc s
  | .tzc2Dec => hasEnd_tzc2Dec s
  | .tzc4Enc => hasEnd_tzc4Enc s
  | .tzc4Dec => hasEnd_tzc4Dec s
  | .rbEnc => hasEnd_rbEnc s
  | .rbDec => hasEnd_rbDec s
  | .pfxEnc => hasEnd_pfxEnc s
  | .pfxDec => hasEnd_pfxDec s
  | .cbpEnc => hasEnd_cbpEnc s
  | .cbpDec => hasEnd_cbpDec s
  | .cavlcEnc4 => hasEnd_cavlcEnc4 s
  | .cavlcDec4 => hasEnd_cavlcDec4 s
  | .cavlcEnc2 => hasEnd_cavlcEnc2 s
  | .cavlcDec2 => hasEnd_cavlcDec2 s
  | .fwd4 => hasEnd_fwd4 s
  | .inv4 => hasEnd_inv4 s
  | .fwdDc4 => hasEnd_fwdDc4 s
  | .invDc4 => hasEnd_invDc4 s
  | .fwdDc2 => hasEnd_fwdDc2 s
  | .invDc2 => hasEnd_invDc2 s
  | .qpc => hasEnd_qpc s
  | .mbInit => hasEnd_mbInit s
  | .mbEncode => hasEnd_mbEncode s
  | .mbDecode => hasEnd_mbDecode s
  | .mbSettype => hasEnd_mbSettype s
  | .mbUnpacktype => hasEnd_mbUnpacktype s
  | .mbNc => hasEnd_mbNc s
  | .mbMvp => hasEnd_mbMvp s

end

end Sys2Proof.Machine
end

section
/-! PROOFS. One lemma per field for the updates that the ends of a command are made of: a list of results, the views of
a macroblock, and the write-set of a dirty error (60 R411). -/

namespace Sys2Proof.Machine

section
variable (s : State)

/-! ### State.setResList -/

@[simp] theorem State.setResList_cfg (i : Nat) (rs : List Int) : (s.setResList i rs).cfg = s.cfg := by rw [s.setResList_eq]
@[simp] theorem State.setResList_cmd (i : Nat) (rs : List Int) : (s.setResList i rs).cmd = s.cmd := by rw [s.setResList_eq]
@[simp] theorem State.setResList_status (i : Nat) (rs : List Int) : (s.setResList i rs).status = s.status := by rw [s.setResList_eq]
@[simp] theorem State.setResList_errAcc (i : Nat) (rs : List Int) : (s.setResList i rs).errAcc = s.errAcc := by rw [s.setResList_eq]
@[simp] theorem State.setResList_arg (i : Nat) (rs : List Int) : (s.setResList i rs).arg = s.arg := by rw [s.setResList_eq]
@[simp] theorem State.setResList_bsBase (i : Nat) (rs : List Int) : (s.setResList i rs).bsBase = s.bsBase := by rw [s.setResList_eq]
@[simp] theorem State.setResList_bsLen (i : Nat) (rs : List Int) : (s.setResList i rs).bsLen = s.bsLen := by rw [s.setResList_eq]
@[simp] theorem State.setResList_bsPos (i : Nat) (rs : List Int) : (s.setResList i rs).bsPos = s.bsPos := by rw [s.setResList_eq]
@[simp] theorem State.setResList_gridW (i : Nat) (rs : List Int) : (s.setResList i rs).gridW = s.gridW := by rw [s.setResList_eq]
@[simp] theorem State.setResList_gridH (i : Nat) (rs : List Int) : (s.setResList i rs).gridH = s.gridH := by rw [s.setResList_eq]
@[simp] theorem State.setResList_gridValid (i : Nat) (rs : List Int) : (s.setResList i rs).gridValid = s.gridValid := by rw [s.setResList_eq]
@[simp] theorem State.setResList_cb (i : Nat) (rs : List Int) : (s.setResList i rs).cb = s.cb := by rw [s.setResList_eq]
@[simp] theorem State.setResList_tb (i : Nat) (rs : List Int) : (s.setResList i rs).tb = s.tb := by rw [s.setResList_eq]
@[simp] theorem State.setResList_dcb (i : Nat) (rs : List Int) : (s.setResList i rs).dcb = s.dcb := by rw [s.setResList_eq]
@[simp] theorem State.setResList_bsbuf (i : Nat) (rs : List Int) : (s.setResList i rs).bsbuf = s.bsbuf := by rw [s.setResList_eq]
@[simp] theorem State.setResList_pinY (i : Nat) (rs : List Int) : (s.setResList i rs).pinY = s.pinY := by rw [s.setResList_eq]
@[simp] theorem State.setResList_pinCb (i : Nat) (rs : List Int) : (s.setResList i rs).pinCb = s.pinCb := by rw [s.setResList_eq]
@[simp] theorem State.setResList_pinCr (i : Nat) (rs : List Int) : (s.setResList i rs).pinCr = s.pinCr := by rw [s.setResList_eq]
@[simp] theorem State.setResList_poutY (i : Nat) (rs : List Int) : (s.setResList i rs).poutY = s.poutY := by rw [s.setResList_eq]
@[simp] theorem State.setResList_poutCb (i : Nat) (rs : List Int) : (s.setResList i rs).poutCb = s.poutCb := by rw [s.setResList_eq]
@[simp] theorem State.setResList_poutCr (i : Nat) (rs : List Int) : (s.setResList i rs).poutCr = s.poutCr := by rw [s.setResList_eq]
@[simp] theorem State.setResList_mbs (i : Nat) (rs : List Int) : (s.setResList i rs).mbs = s.mbs := by rw [s.setResList_eq]
@[simp] theorem State.setResList_pending (i : Nat) (rs : List Int) : (s.setResList i rs).pending = s.pending := by rw [s.setResList_eq]
@[simp] theorem State.setResList_hostData (i : Nat) (rs : List Int) : (s.setResList i rs).hostData = s.hostData := by rw [s.setResList_eq]
@[simp] theorem State.setResList_draws (i : Nat) (rs : List Int) : (s.setResList i rs).draws = s.draws := by rw [s.setResList_eq]

/-! ### State.writeViews -/

@[simp] theorem State.writeViews_cfg (m : Nat) (p : List Mat × List Mat × List Mat) : (s.writeViews m p).cfg = s.cfg := by
  rw [(s.writeViews_only m p).eq]
@[simp] theorem State.writeViews_cmd (m : Nat) (p : List Mat × List Mat × List Mat) : (s.writeViews m p).cmd = s.cmd := by
  rw [(s.writeViews_only m p).eq]
@[simp] theorem State.writeViews_status (m : Nat) (p : List Mat × List Mat × List Mat) : (s.writeViews m p).status = s.status := by
  rw [(s.writeViews_only m p).eq]
@[simp] theorem State.writeViews_errAcc (m : Nat) (p : List Mat × List Mat × List Mat) : (s.writeViews m p).errAcc = s.errAcc := by
  rw [(s.writeViews_only m p).eq]
@[simp] theorem State.writeViews_arg (m : Nat) (p : List Mat × List Mat × List Mat) : (s.writeViews m p).arg = s.arg := by
  rw [(s.writeViews_only m p).eq]
@[simp] theorem State.writeViews_res (m : Nat) (p : List Mat × List Mat × List Mat) : (s.writeViews m p).res = s.res := by
  rw [(s.writeViews_only m p).eq]
@[simp] theorem State.writeViews_bsBase (m : Nat) (p : List Mat × List Mat × List Mat) : (s.writeViews m p).bsBase = s.bsBase := by
  rw [(s.writeViews_only m p).eq]
@[simp] theorem State.writeViews_bsLen (m : Nat) (p : List Mat × List Mat × List Mat) : (s.writeViews m p).bsLen = s.bsLen := by
  rw [(s.writeViews_only m p).eq]
@[simp] theorem State.writeViews_bsPos (m : Nat) (p : List Mat × List Mat × List Mat) : (s.writeViews m p).bsPos = s.bsPos := by
  rw [(s.writeViews_only m p).eq]
@[simp] theorem State.writeViews_gridW (m : Nat) (p : List Mat × List Mat × List Mat) : (s.writeViews m p).gridW = s.gridW := by
  rw [(s.writeViews_only m p).eq]
@[simp] theorem State.writeViews_gridH (m : Nat) (p : List Mat × List Mat × List Mat) : (s.writeViews m p).gridH = s.gridH := by
  rw [(s.writeViews_only m p).eq]
@[simp] theorem State.writeViews_gridValid (m : Nat) (p : List Mat × List Mat × List Mat) : (s.writeViews m p).gridValid = s.gridValid := by
  rw [(s.writeViews_only m p).eq]
@[simp] theorem State.writeViews_cb (m : Nat) (p : List Mat × List Mat × List Mat) : (s.writeViews m p).cb = s.cb := by
  rw [(s.writeViews_only m p).eq]
@[simp] theorem State.writeViews_tb (m : Nat) (p : List Mat × List Mat × List Mat) : (s.writeViews m p).tb = s.tb := by
  rw [(s.writeViews_only m p).eq]
@[simp] theorem State.writeViews_dcb (m : Nat) (p : List Mat × List Mat × List Mat) : (s.writeViews m p).dcb = s.dcb := by
  rw [(s.writeViews_only m p).eq]
@[simp] theorem State.writeViews_bsbuf (m : Nat) (p : List Mat × List Mat × List Mat) : (s.writeViews m p).bsbuf = s.bsbuf := by
  rw [(s.writeViews_only m p).eq]
@[simp] theorem State.writeViews_pinY (m : Nat) (p : List Mat × List Mat × List Mat) : (s.writeViews m p).pinY = s.pinY := by
  rw [(s.writeViews_only m p).eq]
@[simp] theorem State.writeViews_pinCb (m : Nat) (p : List Mat × List Mat × List Mat) : (s.writeViews m p).pinCb = s.pinCb := by
  rw [(s.writeViews_only m p).eq]
@[simp] theorem State.writeViews_pinCr (m : Nat) (p : List Mat × List Mat × List Mat) : (s.writeViews m p).pinCr = s.pinCr := by
  rw [(s.writeViews_only m p).eq]
@[simp] theorem State.writeViews_mbs (m : Nat) (p : List Mat × List Mat × List Mat) : (s.writeViews m p).mbs = s.mbs := by
  rw [(s.writeViews_only m p).eq]
@[simp] theorem State.writeViews_pending (m : Nat) (p : List Mat × List Mat × List Mat) : (s.writeViews m p).pending = s.pending := by
  rw [(s.writeViews_only m p).eq]
@[simp] theorem State.writeViews_hostData (m : Nat) (p : List Mat × List Mat × List Mat) : (s.writeViews m p).hostData = s.hostData := by
  rw [(s.writeViews_only m p).eq]
@[simp] theorem State.writeViews_draws (m : Nat) (p : List Mat × List Mat × List Mat) : (s.writeViews m p).draws = s.draws := by
  rw [(s.writeViews_only m p).eq]

/-! ### State.spoil -/

@[simp] theorem State.spoil_cfg (ws : WriteSet) : (s.spoil ws).cfg = s.cfg := by rw [s.spoil_eq ws]; rfl
@[simp] theorem State.spoil_cmd (ws : WriteSet) : (s.spoil ws).cmd = s.cmd := by rw [s.spoil_eq ws]; rfl
@[simp] theorem State.spoil_status (ws : WriteSet) : (s.spoil ws).status = s.status := by rw [s.spoil_eq ws]; rfl
@[simp] theorem State.spoil_errAcc (ws : WriteSet) : (s.spoil ws).errAcc = s.errAcc := by rw [s.spoil_eq ws]; rfl
@[simp] theorem State.spoil_arg (ws : WriteSet) : (s.spoil ws).arg = s.arg := by rw [s.spoil_eq ws]; rfl
@[simp] theorem State.spoil_bsBase (ws : WriteSet) : (s.spoil ws).bsBase = s.bsBase := by rw [s.spoil_eq ws]; rfl
@[simp] theorem State.spoil_bsLen (ws : WriteSet) : (s.spoil ws).bsLen = s.bsLen := by rw [s.spoil_eq ws]; rfl
@[simp] theorem State.spoil_gridW (ws : WriteSet) : (s.spoil ws).gridW = s.gridW := by rw [s.spoil_eq ws]; rfl
@[simp] theorem State.spoil_gridH (ws : WriteSet) : (s.spoil ws).gridH = s.gridH := by rw [s.spoil_eq ws]; rfl
@[simp] theorem State.spoil_gridValid (ws : WriteSet) : (s.spoil ws).gridValid = s.gridValid := by rw [s.spoil_eq ws]; rfl
@[simp] theorem State.spoil_tb (ws : WriteSet) : (s.spoil ws).tb = s.tb := by rw [s.spoil_eq ws]; rfl
@[simp] theorem State.spoil_dcb (ws : WriteSet) : (s.spoil ws).dcb = s.dcb := by rw [s.spoil_eq ws]; rfl
@[simp] theorem State.spoil_pinY (ws : WriteSet) : (s.spoil ws).pinY = s.pinY := by rw [s.spoil_eq ws]; rfl
@[simp] theorem State.spoil_pinCb (ws : WriteSet) : (s.spoil ws).pinCb = s.pinCb := by rw [s.spoil_eq ws]; rfl
@[simp] theorem State.spoil_pinCr (ws : WriteSet) : (s.spoil ws).pinCr = s.pinCr := by rw [s.spoil_eq ws]; rfl
@[simp] theorem State.spoil_pending (ws : WriteSet) : (s.spoil ws).pending = s.pending := by rw [s.spoil_eq ws]; rfl
@[simp] theorem State.spoil_hostData (ws : WriteSet) : (s.spoil ws).hostData = s.hostData := by rw [s.spoil_eq ws]; rfl

theorem State.spoil_bsPos (ws : WriteSet) :
    (s.spoil ws).bsPos = BitVec.ofNat 32 (s.stream.spoil s.draws ws.writesStream).pos := by
  rw [s.spoil_eq ws]
  rfl

theorem State.spoil_res (ws : WriteSet) :
    (s.spoil ws).res = fillVec s.res ws.resCount fun k => Config.freeWord s.draws (.res k) := by
  rw [s.spoil_eq ws]
  rfl

theorem State.spoil_cb (ws : WriteSet) :
    (s.spoil ws).cb = fillVec s.cb ws.cbCount fun k => Config.freeWord s.draws (.cb k) := by
  rw [s.spoil_eq ws]
  rfl

theorem State.spoil_mbs (ws : WriteSet) :
    (s.spoil ws).mbs = ws.mb.elim s.mbs fun m => s.mbs.set m (freeRecord s.draws) := by
  rw [s.spoil_eq ws]
  cases h : ws.mb <;> simp [State.spoilCore, h]

/-- A dirty error of a command that names no output plane leaves them. -/
theorem State.spoil_pout {ws : WriteSet} (h : ws.writesPout = false) (p : Plane) : (s.spoil ws).pout p = s.pout p := by
  rw [s.spoil_eq_core ws h, State.spoilCore_pout]

/-- BS_POS after a dirty error lies between its start and BS_LEN. -/
theorem State.spoil_bsPos_toNat (ws : WriteSet) (h : s.bsPos.toNat ≤ s.bsLen.toNat) :
    s.bsPos.toNat ≤ (s.spoil ws).bsPos.toNat ∧ (s.spoil ws).bsPos.toNat ≤ s.bsLen.toNat := by
  obtain ⟨hlow, hhigh⟩ := s.stream.spoil_pos s.draws ws.writesStream h
  have hlen := s.bsLen.isLt
  change _ ≤ s.bsLen.toNat at hhigh
  have hpos : (s.spoil ws).bsPos.toNat = (s.stream.spoil s.draws ws.writesStream).pos := by
    rw [State.spoil_bsPos, BitVec.toNat_ofNat, Nat.mod_eq_of_lt (by omega)]
  rw [hpos]
  exact ⟨hlow, hhigh⟩

theorem fillVec_zero {n : Nat} (v : Vector Word n) (f : Nat → Word) : fillVec v 0 f = v := by
  ext k hk
  simp [fillVec]

/-! ### What a command leaves of the fields it was started on -/

theorem State.leaves_stream_bit (u : State) (bs : List Bool) (p : Nat) :
    { s.stream with buf := (s.leaves u bs).bsbuf }.bit p = (s.stream.put bs).bit p := by
  simp [Stream.bit, State.leaves, State.rebuf]

end

/-- How a command ends, from what it answers. -/
theorem ended_of_exec {i : Instr} {s t : State} (h : exec i s = .next t) : ∃ u bs, Ended i s u bs ∧ t = s.leaves u bs := by
  obtain ⟨u, bs, hend, hleaves⟩ := hasEnd s i
  refine ⟨u, bs, hend, ?_⟩
  rw [hleaves.exec] at h
  exact (Host.Outcome.next.inj h).symm

end Sys2Proof.Machine
end

section
/-! PROOFS. What every command does to the state, from the ends it has: the obligations on all commands. -/

namespace Sys2Proof.Machine

/-! ### The stream -/

theorem Effect.bits_room {i : Instr} {s u : State} {bs : List Bool} (h : Effect s i u bs) :
    bs = [] ∨ s.Room bs.length := by
  cases h with
  | write hi hrs hroom => exact .inr hroom
  | encode hready hforms hbits hroom => exact .inr hroom
  | _ => exact .inl rfl

/-- The bits that a command leaves written lie within the bound stream. -/
theorem Ended.bits_room {i : Instr} {s u : State} {bs : List Bool} (h : Ended i s u bs) :
    bs = [] ∨ s.Room bs.length := by
  have hspoil (ws : WriteSet) : s.spoilBits ws = [] ∨ s.Room (s.spoilBits ws).length := by
    have hlen := s.spoilBits_length_le ws
    rcases Nat.eq_zero_or_pos (s.spoilBits ws).length with h0 | hpos
    · exact .inl (List.eq_nil_of_length_eq_zero h0)
    · right
      unfold State.Room
      omega
  cases h with
  | done h => exact h.bits_room
  | clean he => exact .inl rfl
  | dirty hws he hroom => exact hspoil _
  | failed hi hgrid => exact hspoil _

/-- Settles O14: the state that a command leaves and the bits it writes do not depend on the buffer's other bits. -/
theorem streamReadsBounded : Obligations.StreamReadsBounded := by
  intro i s t b hb hexec
  obtain ⟨u, bs, -, hleaves⟩ := hasEnd s i
  rw [hleaves.exec] at hexec
  cases hexec
  refine ⟨_, hleaves b hb, rfl, fun p hp => ?_⟩
  have hother : { s.stream with buf := ((s.rebuf b).leaves u bs).bsbuf }.bit p = ((s.rebuf b).stream.put bs).bit p :=
    (s.rebuf b).leaves_stream_bit u bs p
  rw [hother, State.leaves_stream_bit, Stream.put_bit, Stream.put_bit]
  exact ite_congr rfl (fun _ => rfl) fun _ => hb p hp

/-- Settles O13, by the room that the written bits have. -/
theorem streamWritesBounded : Obligations.StreamWritesBounded := by
  intro i s t hexec
  obtain ⟨u, bs, hend, rfl⟩ := ended_of_exec hexec
  have hroom := hend.bits_room
  constructor
  · intro p hp
    rw [State.leaves_stream_bit, Stream.put_bit, if_neg]
    rcases hroom with rfl | hroom
    · simp
    · exact fun h => Nat.not_lt.mpr hp (Nat.lt_of_lt_of_le h.2 hroom)
  · intro a ha
    refine Stream.putBits_memRead s.stream s.stream.pos bs fun k hk => ?_
    rcases hroom with rfl | hroom
    · cases hk
    · have hend : s.bsPos.toNat + bs.length ≤ s.bsLen.toNat := hroom
      change a ≠ s.bsBase.toNat + (s.bsPos.toNat + k) / 8
      omega

/-! ### STATUS and ERRACC -/

theorem Err.code_le (e : Err) : e.code ≤ 11 := by cases e <;> decide

theorem Err.code_pos (e : Err) : 0 < e.code := by cases e <;> decide

theorem Err.code_eq_nine_iff {e : Err} : e.code = 9 ↔ e = .mbFailure := by cases e <;> simp [Err.code]

theorem Err.Plain.code_ne {e : Err} (h : e.Plain) : e.code ≠ 9 := mt Err.code_eq_nine_iff.mp h

theorem Effect.errAcc {i : Instr} {s u : State} {bs : List Bool} (h : Effect s i u bs) :
    u.errAcc = if i = .clrerr then 0#32 else s.errAcc := by
  have hne {l : List Instr} (hl : Instr.clrerr ∉ l) (hi : i ∈ l) : i ≠ .clrerr := fun h => hl (h ▸ hi)
  cases h with
  | clrerr => rfl
  | query hi => simp [hne (by decide) hi]
  | read hi => simp [hne (by decide) hi, State.advance]
  | write hi => simp [hne (by decide) hi, State.advance]
  | dc _ hi => simp [hne (by decide) hi]
  | _ => simp [State.advance, State.bindStream, State.initGrid]

/-- STATUS and ERRACC of a command that ends with the code `e` and the cause `c`, from ERRACC `acc`. -/
def State.EndsWith (u : State) (acc : Word) (e c : Nat) : Prop :=
  u.status = BitVec.ofNat 32 (e + 256 * c) ∧ u.errAcc = if e = 0 then acc else acc ||| BitVec.ofNat 32 (2 ^ e)

theorem State.succeed_endsWith (u : State) : u.succeed.EndsWith u.errAcc 0 0 := ⟨rfl, rfl⟩

theorem State.fail_endsWith (u : State) (e : Err) : (u.fail e).EndsWith u.errAcc e.code 0 := by
  have hpos := e.code_pos
  rw [State.fail_eq]
  exact ⟨rfl, (if_neg (by omega)).symm⟩

theorem State.failMb_endsWith (u : State) (e : Err) : (u.failMb e).EndsWith u.errAcc 9 e.code := by
  rw [State.failMb_eq]
  exact ⟨rfl, rfl⟩

/-- ERRACC as a command's end finds it (47 R391). -/
def accBefore (i : Instr) (s : State) : Word := if i = .clrerr then 0#32 else s.errAcc

/-- A command leaves its code in STATUS and adds its bit to ERRACC. -/
theorem Ended.endsWith {i : Instr} {s u : State} {bs : List Bool} (h : Ended i s u bs) :
    ∃ e c, e ≤ 11 ∧ c ≤ 11 ∧ (c ≠ 0 ↔ e = 9) ∧ u.EndsWith (accBefore i s) e c := by
  have hplain {e : Err} (he : e.Plain) {v : State} (hv : (v.fail e).EndsWith (accBefore i s) e.code 0) :
      ∃ k c, k ≤ 11 ∧ c ≤ 11 ∧ (c ≠ 0 ↔ k = 9) ∧ (v.fail e).EndsWith (accBefore i s) k c :=
    ⟨e.code, 0, e.code_le, Nat.zero_le _, by simp [he.code_ne], hv⟩
  cases h with
  | done h =>
    have hacc := State.succeed_endsWith ‹State›
    rw [h.errAcc] at hacc
    exact ⟨0, 0, Nat.zero_le _, Nat.zero_le _, by decide, hacc⟩
  | clean hi he =>
    refine hplain he ?_
    rw [accBefore, if_neg hi]
    exact s.fail_endsWith _
  | @dirty e ws hws he hroom =>
    have hi : i ≠ .clrerr := by
      rintro rfl
      cases hws
    refine hplain he.plain ?_
    rw [accBefore, if_neg hi, ← s.spoil_errAcc ws]
    exact (s.spoil ws).fail_endsWith e
  | @failed e pout hi hgrid =>
    have hi : i ≠ .clrerr := by cases pout <;> exact hi ▸ nofun
    have hcode := e.code_pos
    rw [accBefore, if_neg hi, ← s.spoil_errAcc (mbWrites s.mArg pout)]
    exact ⟨9, e.code, by decide, e.code_le, by omega, (s.spoil (mbWrites s.mArg pout)).failMb_endsWith e⟩

/-- Settles O7, by the ends of a command. -/
theorem everyCommandEnds : Obligations.EveryCommandEnds := by
  intro i s
  obtain ⟨u, bs, hend, hleaves⟩ := hasEnd s i
  obtain ⟨e, c, he, hc, hcause, hstatus, hacc⟩ := hend.endsWith
  exact ⟨_, e, c, hleaves.exec, he, hc, hcause, hstatus, hacc⟩

/-! ### What a command keeps -/

/-- The host's registers, input planes and queue, and the machine's parameters are the same. -/
def State.SameHost (s t : State) : Prop :=
  t.cmd = s.cmd ∧ t.arg = s.arg ∧ t.pinY = s.pinY ∧ t.pinCb = s.pinCb ∧ t.pinCr = s.pinCr ∧ t.cfg = s.cfg ∧
    t.pending = s.pending ∧ t.hostData = s.hostData

theorem Effect.sameHost {i : Instr} {s u : State} {bs : List Bool} (h : Effect s i u bs) : s.SameHost u := by
  cases h with
  | _ => simp [State.SameHost, State.advance, State.bindStream, State.initGrid]

theorem Ended.sameHost {i : Instr} {s u : State} {bs : List Bool} (h : Ended i s u bs) : s.SameHost u := by
  cases h with
  | done h => exact h.sameHost
  | clean hi he => exact ⟨rfl, rfl, rfl, rfl, rfl, rfl, rfl, rfl⟩
  | dirty hws he hroom => simp [State.SameHost, State.fail]
  | failed hi hgrid => simp [State.SameHost, State.failMb]

/-- Settles O8, by the ends of a command. -/
theorem commandsKeepHostState : Obligations.CommandsKeepHostState := by
  intro i s t hexec
  obtain ⟨u, bs, hend, rfl⟩ := ended_of_exec hexec
  exact hend.sameHost

end Sys2Proof.Machine
end

section
/-! PROOFS. What each command may write (10 R20, R25): the state table's column "written by commands" and the results
that a command's rule names. -/

namespace Sys2Proof.Machine

section
variable {i : Instr} {s u : State} {bs : List Bool}

/-! ### The fields that a completed command keeps -/

theorem Effect.bound (h : Effect s i u bs) (hi : i ≠ .bsBind) : u.bsBase = s.bsBase ∧ u.bsLen = s.bsLen := by
  cases h with
  | bind => exact absurd rfl hi
  | _ => simp [State.advance, State.initGrid]

theorem Effect.grid_eq (h : Effect s i u bs) (hi : i ≠ .mbInit) :
    u.gridW = s.gridW ∧ u.gridH = s.gridH ∧ u.gridValid = s.gridValid := by
  cases h with
  | grid => exact absurd rfl hi
  | _ => simp [State.advance, State.bindStream]

theorem Effect.mbs (h : Effect s i u bs) (hi : i ∉ [Instr.mbInit, .mbEncode, .mbDecode]) : u.mbs = s.mbs := by
  cases h with
  | grid | encode | decode => exact absurd (by decide) hi
  | _ => simp [State.advance, State.bindStream]

theorem Effect.cb (h : Effect s i u bs) (hi : i ∉ [Instr.cavlcDec4, .cavlcDec2, .fwd4]) : u.cb = s.cb := by
  cases h with
  | block4 | block2 | fwd4 => exact absurd (by decide) hi
  | _ => simp [State.advance, State.bindStream, State.initGrid]

theorem Effect.tb (h : Effect s i u bs) (hi : i ≠ .inv4) : u.tb = s.tb := by
  cases h with
  | inv4 => exact absurd rfl hi
  | _ => simp [State.advance, State.bindStream, State.initGrid]

theorem Effect.dcb (h : Effect s i u bs) (hi : i ∉ dcInstrs) : u.dcb = s.dcb := by
  cases h with
  | dc v hdc => exact absurd hdc hi
  | _ => simp [State.advance, State.bindStream, State.initGrid]

theorem Effect.pout (h : Effect s i u bs) (hi : i ≠ .mbDecode) :
    u.poutY = s.poutY ∧ u.poutCb = s.poutCb ∧ u.poutCr = s.poutCr := by
  cases h with
  | decode => exact absurd rfl hi
  | _ => simp [State.advance, State.bindStream, State.initGrid]

/-- The commands that write the stream. -/
theorem Effect.bits_nil (h : Effect s i u bs) (hi : i ∉ writeInstrs ++ [.mbEncode]) : bs = [] := by
  cases h with
  | write hw => exact absurd (List.mem_append_left _ hw) hi
  | encode => exact absurd (List.mem_append_right _ List.mem_cons_self) hi
  | _ => rfl

/-- The commands that leave BS_POS. -/
def stillInstrs : List Instr :=
  [.nop, .clrerr, .fwd4, .inv4, .fwdDc4, .invDc4, .fwdDc2, .invDc2, .qpc, .mbInit, .mbSettype, .mbUnpacktype, .mbNc,
    .mbMvp]

theorem stillInstrs_disjoint : ∀ i ∈ stillInstrs, i ∉ readInstrs ∧ i ∉ writeInstrs ∧ dirtyWrites i = none ∧
    i ∉ [Instr.bsBind, .bsReset, .cavlcDec4, .cavlcDec2, .mbEncode, .mbDecode] := by decide

theorem Effect.bsPos (h : Effect s i u bs) (hi : i ∈ stillInstrs) : u.bsPos = s.bsPos := by
  obtain ⟨hread, hwrite, -, hother⟩ := stillInstrs_disjoint i hi
  cases h with
  | read h => exact absurd h hread
  | write h => exact absurd h hwrite
  | bind | rewind | block4 | block2 | encode | decode => exact absurd (by decide) hother
  | _ => simp [State.initGrid]

/-! ### The write-sets -/

/-- What the write-set of a dirty error holds. -/
theorem dirtyWrites_spec {ws : WriteSet} (h : dirtyWrites i = some ws) :
    ws.mb = none ∧ ws.writesPout = false ∧ ws.resCount = resCount i ∧ dcResCount i = 0 ∧
      (i ∉ [Instr.cavlcEnc4, .cavlcEnc2] → ws.writesStream = false) ∧
      (i ∉ [Instr.cavlcDec4, .cavlcDec2] → ws.cbCount = 0) ∧ (i = .cavlcDec2 → ws.cbCount = 4) ∧
      i ∉ [Instr.mbInit, .mbEncode, .mbDecode] := by
  cases i <;> cases h <;> decide

theorem spoilBits_nil {ws : WriteSet} (h : ws.writesStream = false) : s.spoilBits ws = [] := by
  rw [State.spoilBits, h]
  rfl

theorem mbInstr_mem {pout : Bool} (hi : i = if pout then .mbDecode else .mbEncode) :
    i ∈ [Instr.mbEncode, .mbDecode] := by
  cases pout <;> simp [hi]

/-! ### The fields that every command keeps -/

theorem Ended.bound (h : Ended i s u bs) (hi : i ≠ .bsBind) : u.bsBase = s.bsBase ∧ u.bsLen = s.bsLen := by
  cases h with
  | done h => exact h.bound hi
  | clean => exact ⟨rfl, rfl⟩
  | dirty | failed => simp [State.fail, State.failMb]

theorem Ended.grid_eq (h : Ended i s u bs) (hi : i ≠ .mbInit) :
    u.gridW = s.gridW ∧ u.gridH = s.gridH ∧ u.gridValid = s.gridValid := by
  cases h with
  | done h => exact h.grid_eq hi
  | clean => exact ⟨rfl, rfl, rfl⟩
  | dirty | failed => simp [State.fail, State.failMb]

theorem Ended.mbs (h : Ended i s u bs) (hi : i ∉ [Instr.mbInit, .mbEncode, .mbDecode]) : u.mbs = s.mbs := by
  cases h with
  | done h => exact h.mbs hi
  | clean => rfl
  | dirty hws =>
    obtain ⟨hmb, -⟩ := dirtyWrites_spec hws
    simp [State.fail, State.spoil_mbs, hmb]
  | failed hmb => exact absurd (List.mem_cons_of_mem _ (mbInstr_mem hmb)) hi

theorem Ended.cb (h : Ended i s u bs) (hi : i ∉ [Instr.cavlcDec4, .cavlcDec2, .fwd4]) : u.cb = s.cb := by
  cases h with
  | done h => exact h.cb hi
  | clean => rfl
  | dirty hws =>
    obtain ⟨-, -, -, -, -, hcb, -⟩ := dirtyWrites_spec hws
    have h0 := hcb fun h => hi (by simp only [List.mem_cons] at h ⊢; tauto)
    simp [State.fail, State.spoil_cb, h0, fillVec_zero]
  | failed => exact (State.spoil_cb ..).trans (fillVec_zero ..)

/-- CAVLC_DEC2 keeps CB[4..15]. -/
theorem Ended.cb_tail (h : Ended .cavlcDec2 s u bs) {k : Nat} (hk : 4 ≤ k) (hk' : k < 16) :
    u.cb.getD k 0 = s.cb.getD k 0 := by
  have hfill (f : Nat → Word) : (fillVec s.cb 4 f).getD k 0 = s.cb.getD k 0 := by
    rw [fillVec_getD _ _ _ _ hk', if_neg (by omega)]
  cases h with
  | done h =>
    cases h with
    | block2 f => simpa [State.succeed] using hfill f
    | query h | read h | write h | dc _ h => exact absurd h (by decide)
  | clean => rfl
  | dirty hws =>
    obtain ⟨-, -, -, -, -, -, hcb, -⟩ := dirtyWrites_spec hws
    simpa [State.fail, State.spoil_cb, hcb rfl] using hfill _
  | failed hmb => exact absurd (mbInstr_mem hmb) (by decide)

theorem Ended.tb (h : Ended i s u bs) (hi : i ≠ .inv4) : u.tb = s.tb := by
  cases h with
  | done h => exact h.tb hi
  | clean => rfl
  | dirty | failed => simp [State.fail, State.failMb]

theorem Ended.dcb (h : Ended i s u bs) (hi : i ∉ dcInstrs) : u.dcb = s.dcb := by
  cases h with
  | done h => exact h.dcb hi
  | clean => rfl
  | dirty | failed => simp [State.fail, State.failMb]

/-- FWD_DC2 and INV_DC2 keep DCB[4..15]. -/
theorem Effect.dcb_tail (h : Effect s i u bs) (hi : i ∈ [Instr.fwdDc2, .invDc2]) {k : Nat} (hk : 4 ≤ k) (hk' : k < 16) :
    u.dcb.getD k 0 = s.dcb.getD k 0 := by
  cases h with
  | dc w hdc hrs hkeep =>
    obtain ⟨f, rfl⟩ := hkeep hi
    rw [State.setResList_dcb, fillVec_getD _ _ _ _ hk', if_neg (by omega)]
  | _ => simp [State.advance, State.bindStream, State.initGrid]

theorem Ended.dcb_tail (h : Ended i s u bs) (hi : i ∈ [Instr.fwdDc2, .invDc2]) {k : Nat} (hk : 4 ≤ k) (hk' : k < 16) :
    u.dcb.getD k 0 = s.dcb.getD k 0 := by
  cases h with
  | done h => exact h.dcb_tail hi hk hk'
  | clean => rfl
  | dirty | failed => simp [State.fail, State.failMb]

theorem Ended.pout (h : Ended i s u bs) (hi : i ≠ .mbDecode) (p : Plane) : u.pout p = s.pout p := by
  cases h with
  | done h =>
    obtain ⟨hy, hcb, hcr⟩ := h.pout hi
    cases p
    · exact hy
    · exact hcb
    · exact hcr
  | clean => cases p <;> rfl
  | dirty hws =>
    obtain ⟨-, hpout, -⟩ := dirtyWrites_spec hws
    rw [← State.spoil_pout s hpout p]
    cases p <;> rfl
  | @failed e pout hmb hgrid =>
    cases pout with
    | true => exact absurd hmb hi
    | false =>
      rw [← State.spoil_pout s (ws := mbWrites s.mArg false) rfl p]
      cases p <;> rfl

theorem Ended.bits_nil (h : Ended i s u bs) (hi : i ∉ writeInstrs ++ [.mbEncode]) : bs = [] := by
  cases h with
  | done h => exact h.bits_nil hi
  | clean => rfl
  | dirty hws =>
    obtain ⟨-, -, -, -, hwrites, -⟩ := dirtyWrites_spec hws
    refine spoilBits_nil (hwrites fun h => hi (List.mem_append_left _ ?_))
    exact (show ∀ i ∈ [Instr.cavlcEnc4, .cavlcEnc2], i ∈ writeInstrs by decide) i h
  | @failed e pout hmb hgrid =>
    cases pout with
    | true => exact spoilBits_nil rfl
    | false => exact absurd (hmb ▸ by decide) hi

theorem Ended.bsPos (h : Ended i s u bs) (hi : i ∈ stillInstrs) : u.bsPos = s.bsPos := by
  obtain ⟨-, -, hclean, hother⟩ := stillInstrs_disjoint i hi
  cases h with
  | done h => exact h.bsPos hi
  | clean => rfl
  | dirty hws => exact absurd (hclean.symm.trans hws) nofun
  | failed hmb =>
    have hmem := mbInstr_mem hmb
    simp only [List.mem_cons] at hother hmem
    tauto

end

/-- Settles O9, field by field, from the ends of a command. -/
theorem writtenOnlyByNamedCommands : Obligations.WrittenOnlyByNamedCommands := by
  intro i s t hexec
  obtain ⟨u, bs, h, rfl⟩ := ended_of_exec hexec
  refine ⟨h.bound, h.grid_eq, h.mbs, h.cb, ?_, h.tb, h.dcb, h.dcb_tail, ?_, ?_, h.bsPos⟩
  · rintro rfl k hk hk'
    exact h.cb_tail hk hk'
  · exact fun hi => ⟨h.pout hi .y, h.pout hi .cb, h.pout hi .cr⟩
  · intro hi
    rw [h.bits_nil hi]
    rfl

/-! ### The results -/

theorem State.setResList_getRes_of_outside (u : State) {j : Nat} {rs : List Int} {k : Nat} (hk : k < 16)
    (h : k < j ∨ j + rs.length ≤ k) : (u.setResList j rs).getRes k = u.getRes k := by
  rw [State.setResList_getRes _ _ _ _ hk, if_neg (by omega)]

theorem State.spoil_getRes_of_outside (s : State) {ws : WriteSet} {k : Nat} (hk : k < 16) (h : ws.resCount ≤ k) :
    (s.spoil ws).getRes k = s.getRes k := by
  rw [State.getRes, State.spoil_res, fillVec_getD _ _ _ _ hk, if_neg (by omega)]
  rfl

theorem mbResults_length (n : Nat) (r : MbRecord) : (mbResults n r).length = 11 := rfl

theorem Effect.getRes {i : Instr} {s u : State} {bs : List Bool} (h : Effect s i u bs) {k : Nat} (hk : k < 16)
    (hres : resCount i ≤ k) (hdc : k < 1 ∨ 1 + dcResCount i ≤ k) : u.getRes k = s.getRes k := by
  cases h with
  | query hi hrs | read hi hrs | write hi hrs =>
    exact State.setResList_getRes_of_outside _ hk (.inr (by omega))
  | block4 v hrs | block2 f hrs =>
    exact State.setResList_getRes_of_outside _ hk (.inr (by simp only [resCount] at hres; omega))
  | fwd4 v hrs =>
    exact State.setResList_getRes_of_outside _ hk (.inr (by simp only [resCount] at hres; omega))
  | dc v hi hrs =>
    exact State.setResList_getRes_of_outside _ hk (by omega)
  | encode =>
    rw [State.setResList_getRes_of_outside _ hk (.inr (by rw [mbResults_length]; exact hres))]
    rfl
  | decode =>
    rw [State.setResList_getRes_of_outside _ hk (.inr (by rw [mbResults_length]; exact hres)), State.setRecord_getRes,
      State.getRes, State.writeViews_res]
    exact (rfl : (s.advance _).getRes k = s.getRes k)
  | _ => rfl

/-- A command keeps the RES registers that its rule does not name. -/
theorem Ended.getRes {i : Instr} {s u : State} {bs : List Bool} (h : Ended i s u bs) {k : Nat} (hk : k < 16)
    (hres : resCount i ≤ k) (hdc : k < 1 ∨ 1 + dcResCount i ≤ k) : u.getRes k = s.getRes k := by
  cases h with
  | done h => exact h.getRes hk hres hdc
  | clean => rfl
  | dirty hws =>
    obtain ⟨-, -, hcount, -⟩ := dirtyWrites_spec hws
    exact s.spoil_getRes_of_outside hk (by omega)
  | @failed e pout hmb hgrid =>
    refine s.spoil_getRes_of_outside (ws := mbWrites s.mArg pout) hk ?_
    rw [hmb] at hres
    cases pout with
    | true => exact hres
    | false => exact hres

/-- Settles O10, by the registers that the ends of a command leave. -/
theorem resOnlyNamed : Obligations.ResOnlyNamed := by
  intro i s t hexec k hk hnamed
  obtain ⟨u, bs, h, rfl⟩ := ended_of_exec hexec
  have hcounts : resCount i ≤ k ∧ (k < 1 ∨ 1 + dcResCount i ≤ k) := by
    cases i <;> simp only [resCount, dcResCount] at hnamed ⊢ <;> omega
  exact h.getRes hk hcounts.1 hcounts.2

end Sys2Proof.Machine
end

section
/-! PROOFS. What a command that fails may change (60 R410, R411), and what a macroblock command keeps (45 R362). -/

namespace Sys2Proof.Machine

/-! ### The code in STATUS -/

theorem statusErr_fail (u : State) (e : Err) : statusErr (u.fail e).status = e.code := by
  have hcode := e.code_le
  rw [State.fail_eq]
  simp only [statusErr, BitVec.toNat_ofNat]
  omega

theorem statusErr_failMb (u : State) (e : Err) : statusErr (u.failMb e).status = 9 := by
  have hcode := e.code_le
  rw [State.failMb_eq]
  simp only [statusErr, BitVec.toNat_ofNat]
  omega

theorem statusErr_succeed (u : State) : statusErr u.succeed.status = 0 := rfl

theorem Err.OfStream.code_not_mem {e : Err} (h : e.OfStream) : e.code ∉ [5, 6, 10, 11] := by
  simp only [Err.OfStream, List.mem_cons, List.not_mem_nil, or_false] at h
  rcases h with rfl | rfl | rfl | rfl <;> decide

/-- The commands all of whose errors are clean (60 R410). -/
def cleanInstrs : List Instr :=
  [.bsBind, .bsRead1, .bsReadn, .bsWrite, .ueEnc, .seEnc, .teEnc, .ctEnc, .tz4Enc, .tzc2Enc, .tzc4Enc, .rbEnc, .pfxEnc,
    .cbpEnc, .fwd4, .inv4, .fwdDc4, .invDc4, .fwdDc2, .invDc2, .qpc, .mbInit, .mbSettype, .mbUnpacktype, .mbNc, .mbMvp]

theorem cleanInstrs_disjoint : ∀ i ∈ cleanInstrs, dirtyWrites i = none ∧ i ∉ [Instr.mbEncode, .mbDecode] := by decide

/-- Settles O11: a dirty error has a code of the stream's and a bit to read or write, and MbFailure a code of its own. -/
theorem cleanErrorsChangeNothing : Obligations.CleanErrorsChangeNothing := by
  intro i s t hexec hcase
  obtain ⟨u, bs, hend, rfl⟩ := ended_of_exec hexec
  cases hend with
  | @done v _ h =>
    have herr := statusErr_succeed v
    rcases hcase with h5 | ⟨h0, -⟩ | ⟨h0, -⟩
    · exact absurd (herr ▸ h5) (by decide)
    · exact absurd rfl h0
    · exact absurd rfl h0
  | @clean e hi he =>
    change s.fail e = s.endsClean (statusErr (s.fail e).status)
    rw [statusErr_fail, State.fail_eq_endsClean]
  | @dirty e ws hws he hroom =>
    have herr := statusErr_fail (s.spoil ws) e
    rcases hcase with h5 | ⟨-, h0, -⟩ | ⟨-, h0⟩
    · exact absurd (herr ▸ h5) he.code_not_mem
    · exact absurd hroom h0
    · exact absurd ((cleanInstrs_disjoint i h0).1.symm.trans hws) nofun
  | @failed e pout hmb hgrid =>
    have herr := statusErr_failMb (s.spoil (mbWrites s.mArg pout)) e
    have hmem := mbInstr_mem hmb
    rcases hcase with h5 | ⟨-, -, h0⟩ | ⟨-, h0⟩
    · exact absurd (herr ▸ h5) (by decide)
    · exact absurd hmem h0
    · exact absurd hmem (cleanInstrs_disjoint i h0).2

/-! ### A failed command -/

theorem State.leaves_record (s u : State) (bs : List Bool) (n : Nat) : (s.leaves u bs).record n = u.record n := rfl

/-- A macroblock command's write-set holds the record of macroblock ARG0 alone. -/
theorem State.spoil_mb_record (s : State) (m : Nat) (pout : Bool) {n : Nat} (hn : n ≠ m) :
    (s.spoil (mbWrites m pout)).record n = s.record n := by
  rw [State.record, State.spoil_mbs, State.record]
  change (s.mbs.set m _).getD n _ = _
  simp [List.getD, List.getElem?_set_ne (Ne.symm hn)]

/-- The record of a macroblock that failed is not DONE. -/
theorem State.spoil_mb_done (s : State) (m : Nat) (pout : Bool) :
    ((s.spoil (mbWrites m pout)).record m).done = false := by
  rw [State.record, State.spoil_mbs]
  change ((s.mbs.set m (freeRecord s.draws)).getD m MbRecord.fresh).done = false
  rcases Nat.lt_or_ge m s.mbs.length with hm | hm
  · rw [List.getD_eq_getElem _ _ (by simpa using hm), List.getElem_set_self]
    rfl
  · rw [List.getD_eq_default _ _ (by simpa using hm)]
    rfl

/-- The bits that a dirty error leaves outside its stretch of the bound stream. -/
theorem State.spoil_bit (s : State) (ws : WriteSet) {p : Nat} (hp : p < s.bsPos.toNat ∨ s.bsLen.toNat ≤ p) :
    (s.stream.put (s.spoilBits ws)).bit p = s.stream.bit p := by
  rw [Stream.put_bit, if_neg]
  have hlen := s.spoilBits_length_le ws
  rintro ⟨hlow, hhigh⟩
  change s.bsPos.toNat ≤ p at hlow
  change p < s.bsPos.toNat + _ at hhigh
  omega

/-- The records that a failed command keeps. -/
theorem Ended.failed_record {i : Instr} {s u : State} {bs : List Bool} (h : Ended i s u bs) (hfail : u.status ≠ 0)
    {n : Nat} (hn : n ≠ s.mArg) : u.record n = s.record n := by
  cases h with
  | done h => exact absurd rfl hfail
  | clean => rfl
  | dirty hws =>
    obtain ⟨hmb, -⟩ := dirtyWrites_spec hws
    change (State.mbs _).getD n _ = _
    rw [State.fail, State.endCommand_mbs, State.spoil_mbs, hmb]
    rfl
  | failed => exact s.spoil_mb_record _ _ hn

/-- BS_POS and the stream's bits after a failed command. -/
theorem Ended.failed_stream {i : Instr} {s u : State} {bs : List Bool} (h : Ended i s u bs) (hfail : u.status ≠ 0) :
    (s.bsPos.toNat ≤ s.bsLen.toNat → s.bsPos.toNat ≤ u.bsPos.toNat ∧ u.bsPos.toNat ≤ s.bsLen.toNat) ∧
    (∀ p, p < s.bsPos.toNat ∨ s.bsLen.toNat ≤ p → (s.stream.put bs).bit p = s.stream.bit p) := by
  cases h with
  | done h => exact absurd rfl hfail
  | clean => exact ⟨fun h => ⟨Nat.le_refl _, h⟩, fun _ _ => rfl⟩
  | dirty | failed => exact ⟨s.spoil_bsPos_toNat _, fun _ hp => s.spoil_bit _ hp⟩

/-- A command that can fail with a dirty error or with MbFailure, fails so that it leaves the grid and the bound. -/
theorem Ended.failed_bound {i : Instr} {s u : State} {bs : List Bool} (h : Ended i s u bs) (hfail : u.status ≠ 0) :
    u.bsBase = s.bsBase ∧ u.bsLen = s.bsLen ∧ u.tb = s.tb ∧ u.dcb = s.dcb ∧ u.gridW = s.gridW ∧ u.gridH = s.gridH ∧
      u.gridValid = s.gridValid := by
  cases h with
  | done h => exact absurd rfl hfail
  | clean => exact ⟨rfl, rfl, rfl, rfl, rfl, rfl, rfl⟩
  | dirty | failed => simp [State.fail, State.failMb]

/-- Settles O12, by the ends of a command other than its completion. -/
theorem failedCommandKeeps : Obligations.FailedCommandKeeps := by
  intro i s t hexec hfail
  obtain ⟨u, bs, h, rfl⟩ := ended_of_exec hexec
  obtain ⟨hbase, hlen, htb, hdcb, hw, hh, hvalid⟩ := h.failed_bound hfail
  obtain ⟨hpos, hbits⟩ := h.failed_stream hfail
  refine ⟨hbase, hlen, htb, hdcb, hw, hh, hvalid, hpos, fun p hp => ?_, fun n hn => h.failed_record hfail hn, ?_⟩
  · have hstream : (s.leaves u bs).stream.bit p = { s.stream with buf := (s.leaves u bs).bsbuf }.bit p := by
      change Stream.bit ⟨_, u.bsBase.toNat, _, _⟩ p = Stream.bit ⟨_, s.bsBase.toNat, _, _⟩ p
      rw [hbase]
      rfl
    rw [hstream, State.leaves_stream_bit, hbits p hp]
  · intro h9
    cases h with
    | done h => exact absurd rfl hfail
    | @clean e hi he =>
      exact absurd ((statusErr_fail s e).symm.trans h9) he.code_ne
    | @dirty e ws hws he hroom =>
      exact absurd ((statusErr_fail (s.spoil ws) e).symm.trans h9) he.plain.code_ne
    | failed => exact s.spoil_mb_done _ _

/-! ### Macroblock commands -/

/-- The commands other than the macroblock commands that Effect groups. -/
theorem mbInstr_disjoint : ∀ i ∈ [Instr.mbEncode, .mbDecode], i ∉ queryInstrs ++ readInstrs ++ writeInstrs ++ dcInstrs := by
  decide

theorem mbInstr_other : ∀ i ∈ [Instr.mbEncode, .mbDecode], i ≠ .bsBind ∧ i ≠ .mbInit ∧
    i ∉ [Instr.cavlcDec4, .cavlcDec2, .fwd4] ∧ i ≠ .inv4 ∧ i ∉ dcInstrs := by decide

/-- A macroblock command's effect on the record store. -/
theorem Effect.mb_mbs {i : Instr} {s u : State} {bs : List Bool} (h : Effect s i u bs)
    (hi : i ∈ [Instr.mbEncode, .mbDecode]) : ∃ r, u.mbs = s.mbs.set s.mArg r := by
  cases h with
  | encode => exact ⟨_, by rw [State.setResList_mbs]; rfl⟩
  | decode => exact ⟨_, by rw [State.setResList_mbs, State.setRecord_mbs, State.writeViews_mbs]; rfl⟩
  | nop | clrerr | bind | rewind | block4 | block2 | fwd4 | inv4 | grid => exact absurd hi (by decide)
  | query h | read h | write h | dc _ h => exact absurd (by simp [h]) (mbInstr_disjoint i hi)

theorem Ended.mb_mbs {i : Instr} {s u : State} {bs : List Bool} (h : Ended i s u bs)
    (hi : i ∈ [Instr.mbEncode, .mbDecode]) : u.mbs = s.mbs ∨ ∃ r, u.mbs = s.mbs.set s.mArg r := by
  cases h with
  | done h => exact .inr (h.mb_mbs hi)
  | clean => exact .inl rfl
  | dirty hws =>
    obtain ⟨-, -, -, -, -, -, -, hmb⟩ := dirtyWrites_spec hws
    exact absurd (List.mem_cons_of_mem _ hi) hmb
  | failed => exact .inr ⟨_, s.spoil_mbs _⟩

/-- Writes to the elements of a view leave every element outside it. -/
theorem State.OnlyPout.fillView_poutAt_outside {s t : State} (h : s.OnlyPout t) {m : Nat}
    (hm : m % s.gridW.toNat < s.cfg.maxMbw) (p : Plane) (f : Nat → Nat → Word) {q : Plane} {row col : Nat}
    (hcol : col < planeWidth s.cfg q) (hout : ¬ s.InView m q row col) :
    (t.fillView p m f (square (viewSide p))).poutAt q row col = t.poutAt q row col :=
  State.fillView_poutAt_outside (by rwa [h.gridW, h.cfg]) f (by rwa [h.cfg]) fun hq => by
    rw [h.inView_iff]
    exact hq ▸ hout

theorem State.spoilViews_poutAt_outside (s : State) (d : Nat) {m : Nat} (hm : m % s.gridW.toNat < s.cfg.maxMbw)
    {q : Plane} {row col : Nat} (hcol : col < planeWidth s.cfg q) (hout : ¬ s.InView m q row col) :
    (s.spoilViews d m).poutAt q row col = s.poutAt q row col := by
  have hfill (t : State) (p : Plane) : t.spoilView d p m =
      t.fillView p m (fun i j => Config.freeWord d (.pout p i j)) (square (viewSide p)) := rfl
  have hy := s.fillView_only .y m (fun i j => Config.freeWord d (.pout .y i j)) (square (viewSide .y))
  have hcb := hy.trans (State.fillView_only _ .cb m (fun i j => Config.freeWord d (.pout .cb i j)) (square (viewSide .cb)))
  simp only [State.spoilViews, hfill]
  rw [hcb.fillView_poutAt_outside hm _ _ hcol hout, hy.fillView_poutAt_outside hm _ _ hcol hout,
    (State.OnlyPout.refl s).fillView_poutAt_outside hm _ _ hcol hout]

/-- A state's output element depends on its parameters and that plane alone. -/
theorem State.poutAt_congr {s u : State} (hcfg : u.cfg = s.cfg) {q : Plane} (hpout : u.pout q = s.pout q) (row col : Nat) :
    u.poutAt q row col = s.poutAt q row col := by
  rw [State.poutAt, hpout, hcfg, State.poutAt]

/-- MbFailure of MB_DECODE keeps the output elements outside the macroblock's views. -/
theorem State.spoil_decode_poutAt_outside (s : State) {m : Nat} (hm : m % s.gridW.toNat < s.cfg.maxMbw) {q : Plane}
    {row col : Nat} (hcol : col < planeWidth s.cfg q) (hout : ¬ s.InView m q row col) :
    (s.spoil (mbWrites m true)).poutAt q row col = s.poutAt q row col := by
  have hspoil : s.spoil (mbWrites m true) = (s.spoilCore (mbWrites m true)).spoilViews s.draws m := rfl
  have hcfg : (s.spoilCore (mbWrites m true)).cfg = s.cfg := rfl
  have hw : (s.spoilCore (mbWrites m true)).gridW = s.gridW := rfl
  have hpout : (s.spoilCore (mbWrites m true)).pout q = s.pout q := s.spoilCore_pout _ q
  rw [hspoil]
  generalize s.spoilCore (mbWrites m true) = t at hcfg hw hpout ⊢
  rw [t.spoilViews_poutAt_outside s.draws (by rwa [hw, hcfg]) (by rwa [hcfg])
    (by rwa [State.InView, hw]), State.poutAt_congr hcfg hpout]

theorem State.OnGrid.mbx_lt {s : State} (h : s.OnGrid) (hgrid : s.GridOk) : s.mArg % s.gridW.toNat < s.cfg.maxMbw := by
  rw [State.GridOk, if_pos h.1] at hgrid
  obtain ⟨hw, hwmax, -⟩ := hgrid
  exact Nat.lt_of_lt_of_le (Nat.mod_lt _ hw) hwmax

theorem State.failMb_poutAt (s : State) (e : Err) (q : Plane) (row col : Nat) :
    (s.failMb e).poutAt q row col = s.poutAt q row col := by
  cases q <;> rfl

/-- MB_DECODE keeps the output elements outside its macroblock's views. -/
theorem Ended.poutAt_outside {i : Instr} {s u : State} {bs : List Bool} (h : Ended i s u bs) (hgrid : s.GridOk)
    {q : Plane} {row col : Nat} (hcol : col < planeWidth s.cfg q)
    (hout : i = .mbEncode ∨ ¬ s.InView s.mArg q row col) (hi : i ∈ [Instr.mbEncode, .mbDecode]) :
    u.poutAt q row col = s.poutAt q row col := by
  by_cases hdec : i = .mbDecode
  · subst hdec
    have hout' : ¬ s.InView s.mArg q row col := hout.resolve_left nofun
    cases h with
    | done h =>
      cases h with
      | @decode r n p hready hlayer hrec hroom =>
        have hm := hready.1.mbx_lt hgrid
        rw [State.succeed_setRecord_poutAt]
        exact State.writeViews_poutAt_outside (s := s.advance n) hm p hcol hout'
      | query h | read h | write h | dc _ h => exact absurd h (by decide)
    | clean => rfl
    | dirty hws => cases hws
    | @failed e pout hmb hon =>
      cases pout with
      | true =>
        rw [State.failMb_poutAt]
        exact s.spoil_decode_poutAt_outside (hon.mbx_lt hgrid) hcol hout'
      | false => cases hmb
  · have hpout := h.pout hdec q
    obtain ⟨-, -, -, -, -, hcfg, -, -⟩ := h.sameHost
    rw [State.poutAt, hpout, hcfg]
    rfl

theorem record_of_mbs {s u : State} {m : Nat} (h : u.mbs = s.mbs ∨ ∃ r, u.mbs = s.mbs.set m r) :
    u.mbs.length = s.mbs.length ∧ ∀ n, n ≠ m → u.record n = s.record n := by
  rcases h with h | ⟨r, h⟩
  · exact ⟨congrArg _ h, fun n _ => congrArg (fun l => l.getD n MbRecord.fresh) h⟩
  · refine ⟨by rw [h, List.length_set], fun n hn => ?_⟩
    rw [State.record, h, State.record]
    simp [List.getD, List.getElem?_set_ne (Ne.symm hn)]

/-- Settles O53, by what a macroblock command's ends leave of the record store and the output planes. -/
theorem macroblockCommandsKeepOthers : Obligations.MacroblockCommandsKeepOthers := by
  intro i s t hi hgrid hexec
  obtain ⟨u, bs, h, rfl⟩ := ended_of_exec hexec
  obtain ⟨hbind, hinit, hcb, htb, hdcb⟩ := mbInstr_other i hi
  obtain ⟨hlength, hrecord⟩ := record_of_mbs (h.mb_mbs hi)
  obtain ⟨hbase, hlen⟩ := h.bound hbind
  obtain ⟨hw, hh, hvalid⟩ := h.grid_eq hinit
  refine ⟨hrecord, hlength, fun p row col hin hout => h.poutAt_outside hgrid ?_ hout hi, h.cb hcb, h.tb htb, h.dcb hdcb,
    hbase, hlen, hw, hh, hvalid⟩
  simp only [inPlane, Bool.and_eq_true, decide_eq_true_eq] at hin
  exact hin.2

end Sys2Proof.Machine
end

section
/-! PROOFS. What the transform stage of MB_ENCODE answers (45 R350), component by component. -/

namespace Sys2Proof.Machine

/-! ### One block -/

theorem Mat.InRange.mat4_toVec_eq {m : Mat} (h : m.InRange) {i j : Nat} (hi : i < 4) (hj : j < 4) :
    vecInt m.toVec (4 * i + j) = m.entry i j := mat4_toVec h hi hj

/-- The coefficients that are quantised: the DC term is taken out when `extract` (45 R350). -/
def takenOut (extract : Bool) (w : Nat → Nat → Int) : Nat → Nat → Int := if extract then withDc w 0 else w

theorem encodeBlock_eq_ok {x : Mat} {qp : Nat} {intra extract : Bool} {out : Int × Vec16}
    (h : encodeBlock x qp intra extract = .ok out) : out.1 = sandwich cf x.entry 0 0 ∧
      ∀ i < 4, ∀ j < 4, vecInt out.2 (4 * i + j) =
        quantSpec qp intra i j (takenOut extract (sandwich cf x.entry) i j) := by
  obtain ⟨w, hw, h⟩ := except_bind_eq_ok_iff.mp h
  obtain ⟨z, hz, h⟩ := except_bind_eq_ok_iff.mp h
  cases h
  have hdc : w.entry 0 0 = sandwich cf x.entry 0 0 := coreFwd_entry hw (by decide) (by decide)
  refine ⟨hdc, fun i hi j hj => ?_⟩
  rw [(quant_inRange hz).mat4_toVec_eq hi hj, quant_entry hz hi hj]
  congr 1
  cases extract with
  | false => exact coreFwd_entry hw hi hj
  | true =>
    change (w.setDc 0).entry i j = withDc (sandwich cf x.entry) 0 i j
    rw [Mat.setDc_entry, withDc, withDc, coreFwd_entry hw hi hj]

/-! ### The three components -/

/-- The DC term of a component's blocks is coded in a DC block (45 R350). -/
def takesDc (intra : Bool) : Comp → Bool
  | .luma => intra
  | _ => true

/-- The QP of a component's blocks (45 R350; 44 R281). -/
def compQp (cfg : Config) (qp : Int) : Comp → Nat
  | .luma => qp.toNat
  | _ => qpcSpec cfg qp

/-- `v` is the quantised 2x2 transform of the DC terms `dc` (44 R277, R279). -/
def ChromaDc (dc : Nat → Int) (qpc : Nat) (intra : Bool) (v : Vec4) : Prop :=
  ∃ y z, hadamard2 ⟨dc 0, dc 1, dc 2, dc 3⟩ = .ok y ∧ dcQuant2 y qpc intra = .ok z ∧
    v = vec4 (fun k => toWord (z.toList.getD k 0))

/-- `r` has the coefficient blocks that the transform stage gives for the macroblock of `a`; `w` are the DC terms and
coefficients of its blocks (45 R350). -/
structure State.Transformed (s : State) (a : EncodeArgs) (r : MbRecord) (w : Comp → Nat → Int × Vec16) : Prop where
  block : ∀ c : Comp, ∀ b < c.across * c.across,
    Machine.encodeBlock (s.samples a.m c b) (compQp s.cfg a.qp c) a.intra (takesDc a.intra c) = .ok (w c b)
  coef : ∀ c : Comp, ∀ b < c.across * c.across, r.coef c b = (w c b).2
  lumaDc : encodeLumaDc ((List.range 16).map fun b => (w .luma b).1) a.qp.toNat a.intra = .ok r.dcY
  chromaDc : ∀ c ∈ [Comp.cb, .cr], ChromaDc (fun b => (w c b).1) (qpcSpec s.cfg a.qp) a.intra (r.dcc c)

theorem mapErr_length {α β : Type} {f : α → Except Err β} {xs : List α} {ys : List β} (h : mapErr f xs = .ok ys) :
    ys.length = xs.length := (mapErr_forall₂ h).length_eq.symm

/-- An element for an index beyond a component's blocks. -/
def noBlock : Int × Vec16 := (0, zero16)

theorem map_snd_getD_noBlock (l : List (Int × Vec16)) (b : Nat) : (l.map (·.2)).getD b zero16 = (l.getD b noBlock).2 := by
  rw [show zero16 = (noBlock).2 from rfl, List.getD_map]

theorem map_fst_getD_noBlock (l : List (Int × Vec16)) (b : Nat) : (l.map (·.1)).getD b 0 = (l.getD b noBlock).1 := by
  rw [show (0 : Int) = (noBlock).1 from rfl, List.getD_map]

/-- The first components of a list of `n` pairs, by their index. -/
theorem map_fst_of_length {l : List (Int × Vec16)} {n : Nat} (h : l.length = n) :
    l.map (·.1) = (List.range n).map fun b => (l.getD b noBlock).1 := by
  refine List.ext_getElem (by simp [h]) fun k hk _ => ?_
  rw [List.length_map] at hk
  simp [hk]

theorem encodeChroma_eq_ok {s : State} {m : Nat} {c : Comp} {qpc : Nat} {intra : Bool} {dc : Vec4}
    {coef : Vector Vec16 4} (h : encodeChroma s m c qpc intra = .ok (dc, coef)) : ∃ w : Nat → Int × Vec16,
      (∀ b < 4, encodeBlock (s.samples m c b) qpc intra true = .ok (w b)) ∧
      (∀ b < 4, coef.getD b zero16 = (w b).2) ∧ ChromaDc (fun b => (w b).1) qpc intra dc := by
  obtain ⟨blocks, hblocks, h⟩ := except_bind_eq_ok_iff.mp h
  obtain ⟨y, hy, h⟩ := except_bind_eq_ok_iff.mp h
  obtain ⟨z, hz, h⟩ := except_bind_eq_ok_iff.mp h
  cases h
  refine ⟨fun b => blocks.getD b noBlock, fun b hb => mapErr_range_getD hblocks hb _, fun b hb => ?_, y, z, ?_, hz, rfl⟩
  · rw [← map_snd_getD_noBlock]
    simp [Vector.getD, hb]
  · simpa only [dcFwd2, map_fst_getD_noBlock] using hy

/-- The record that the transform stage forms: its blocks, and all else as before (45 R350). -/
theorem encodeTransform_eq_ok {s : State} {a : EncodeArgs} {r r₁ : MbRecord} (h : encodeTransform s a r = .ok r₁) :
    (∃ w, s.Transformed a r₁ w) ∧
      r₁ = { r with coefY := r₁.coefY, dcY := r₁.dcY, coefC := r₁.coefC, dcC := r₁.dcC } := by
  obtain ⟨blocks, hblocks, h⟩ := except_bind_eq_ok_iff.mp h
  obtain ⟨dcY, hdcY, h⟩ := except_bind_eq_ok_iff.mp h
  obtain ⟨⟨dcb, coefb⟩, hb, h⟩ := except_bind_eq_ok_iff.mp h
  obtain ⟨⟨dcr, coefr⟩, hr, h⟩ := except_bind_eq_ok_iff.mp h
  cases h
  rw [qpChroma_eq_qpcSpec] at hb hr
  obtain ⟨wb, hwb, hcoefb, hdcb⟩ := encodeChroma_eq_ok hb
  obtain ⟨wr, hwr, hcoefr, hdcr⟩ := encodeChroma_eq_ok hr
  refine ⟨⟨fun c => match c with
    | .luma => fun b => blocks.getD b noBlock
    | .cb => wb
    | .cr => wr, ?_, ?_, ?_, ?_⟩, rfl⟩
  · intro c b hlt
    cases c with
    | luma => exact mapErr_range_getD hblocks hlt _
    | cb => exact hwb b hlt
    | cr => exact hwr b hlt
  · intro c b hlt
    cases c with
    | luma =>
      change (Vector.ofFn _).getD b zero16 = _
      have hlt : b < 16 := hlt
      rw [← map_snd_getD_noBlock]
      simp [Vector.getD, hlt]
    | cb => exact hcoefb b hlt
    | cr => exact hcoefr b hlt
  · have hlen := mapErr_length hblocks
    rw [List.length_range] at hlen
    rw [← map_fst_of_length hlen]
    exact hdcY
  · intro c hc
    cases c with
    | luma => exact absurd hc (by decide)
    | cb => exact hdcb
    | cr => exact hdcr

/-! ### The blocks as the transform rules give them -/

theorem State.samples_entry (s : State) (m : Nat) (c : Comp) (b : Nat) {i j : Nat} (hi : i < 4) (hj : j < 4) :
    (s.samples m c b).entry i j = s.block m c b i j := by
  have hrow : (4 * i + j) / 4 = i := by omega
  have hcol : (4 * i + j) % 4 = j := by omega
  rw [State.samples, Mat.ofFn_entry _ hi hj, hrow, hcol]
  rfl

theorem State.sandwich_samples (s : State) (m : Nat) (c : Comp) (b : Nat) :
    sandwich cf (s.samples m c b).entry = sandwich cf (s.block m c b) := by
  funext i j
  exact sandwich_congr cf (fun _ hi _ hj => s.samples_entry m c b hi hj) i j

theorem lumaDcMat_entry (f : Nat → Int) {i j : Nat} (hi : i < 4) (hj : j < 4) :
    (lumaDcMat ((List.range 16).map f)).entry i j = f (blkAt j i) := by
  have hrow : (4 * i + j) / 4 = i := by omega
  have hcol : (4 * i + j) % 4 = j := by omega
  have hlt := blkAt_lt j hj i hi
  rw [lumaDcMat, Mat.ofFn_entry _ hi hj, hrow, hcol]
  simp [hlt]

theorem encodeLumaDc_eq_ok {f : Nat → Int} {qp : Nat} {intra : Bool} {v : Vec16}
    (h : encodeLumaDc ((List.range 16).map f) qp intra = .ok v) {i j : Nat} (hi : i < 4) (hj : j < 4) :
    vecInt v (4 * i + j) = if intra then
      dcQuantSpec qp true (sandwich hMat (fun y x => f (blkAt x y)) i j / 2) else 0 := by
  cases intra with
  | false =>
    cases h
    have hzero : ∀ k < 16, vecInt zero16 k = 0 := by decide
    exact hzero _ (by omega)
  | true =>
    obtain ⟨y, hy, h⟩ := except_bind_eq_ok_iff.mp h
    obtain ⟨z, hz, h⟩ := except_bind_eq_ok_iff.mp h
    cases h
    have hentry := dcQuantOne_eq_ok (Mat.mapE_entry hz i j)
    rw [(Mat.mapE_inRange (fun h => (dcQuantOne_eq_ok h).1) hz).mat4_toVec_eq hi hj, hentry.2, dcFwd4_entry hy hi hj,
      sandwich_congr hMat fun a ha b hb => lumaDcMat_entry f ha hb]
    rfl

theorem vecInt_vec4 (f : Nat → Word) : ∀ k < 4, vecInt (vec4 f) k = (f k).toInt := by
  intro k hk
  interval_cases k <;> rfl

theorem ChromaDc.value {dc : Nat → Int} {qpc : Nat} {intra : Bool} {v : Vec4} (h : ChromaDc dc qpc intra v) {i j : Nat}
    (hi : i < 2) (hj : j < 2) : vecInt v (2 * i + j) =
      dcQuantSpec qpc intra (sandwich2 h2Mat (fun y x => dc (2 * y + x)) i j) := by
  obtain ⟨y, z, hy, hz, rfl⟩ := h
  have hlt : 2 * i + j < 4 := by omega
  obtain ⟨hrange, hval⟩ := dcQuantOne_eq_ok (Quad.mapE_get hz (2 * i + j))
  rw [vecInt_vec4 _ _ hlt, Quad.toList_getD _ hlt, toInt_toWord hrange, hval, hadamard2_get hy _ hlt]
  have hrow : (2 * i + j) / 2 = i := by omega
  have hcol : (2 * i + j) % 2 = j := by omega
  rw [hrow, hcol]
  rfl

end Sys2Proof.Machine
end

section
/-! PROOFS. The coded block pattern of a record (45 R345), and the blocks and pattern of a coded macroblock. -/

namespace Sys2Proof.Machine

/-! ### The coded block pattern (45 R345) -/

theorem someNonzero_iff {n : Nat} {v : Vector Word n} : someNonzero v = true ↔ ∃ k < n, vecInt v k ≠ 0 := by
  simp only [someNonzero, vecInts, List.any_map, List.any_eq_true, Function.comp_apply, decide_eq_true_eq,
    Vector.mem_toList_iff, Vector.mem_iff_getElem]
  constructor
  · rintro ⟨_, ⟨k, hk, rfl⟩, hne⟩
    exact ⟨k, hk, by simpa [vecInt, Vector.getD, hk] using hne⟩
  · rintro ⟨k, hk, hne⟩
    exact ⟨_, ⟨k, hk, rfl⟩, by simpa [vecInt, Vector.getD, hk] using hne⟩

/-- The luma part of the pattern is coded for 8x8 block `b8`. -/
def MbRecord.lumaCoded (r : MbRecord) (b8 : Nat) : Bool :=
  if r.intra then (List.range 16).any fun b => someNonzero (r.coef .luma b)
  else (List.range 4).any fun i => someNonzero (r.coef .luma (4 * b8 + i))

/-- Four bits as a number. -/
def nibble (p : Nat → Bool) : Nat := (List.range 4).foldl (fun acc b8 => acc + if p b8 then 2 ^ b8 else 0) 0

theorem nibble_eq (p : Nat → Bool) : nibble p = (p 0).toNat + 2 * (p 1).toNat + 4 * (p 2).toNat + 8 * (p 3).toNat := by
  change 0 + (if p 0 then 1 else 0) + (if p 1 then 2 else 0) + (if p 2 then 4 else 0) + (if p 3 then 8 else 0) = _
  cases p 0 <;> cases p 1 <;> cases p 2 <;> cases p 3 <;> rfl

theorem testBit_of_four_bits : ∀ p q r t : Bool, let n := p.toNat + 2 * q.toNat + 4 * r.toNat + 8 * t.toNat
    n.testBit 0 = p ∧ n.testBit 1 = q ∧ n.testBit 2 = r ∧ n.testBit 3 = t := by decide

theorem nibble_testBit (p : Nat → Bool) {b8 : Nat} (h : b8 < 4) : (nibble p).testBit b8 = p b8 := by
  obtain ⟨h0, h1, h2, h3⟩ := testBit_of_four_bits (p 0) (p 1) (p 2) (p 3)
  rw [nibble_eq]
  interval_cases b8
  · exact h0
  · exact h1
  · exact h2
  · exact h3

theorem nibble_le (p : Nat → Bool) : nibble p ≤ 15 := by
  have h (b : Bool) := b.toNat_le
  have := h (p 0)
  have := h (p 1)
  have := h (p 2)
  have := h (p 3)
  rw [nibble_eq]
  omega

theorem cbpLuma_eq (r : MbRecord) : cbpLuma r = nibble r.lumaCoded := by
  unfold cbpLuma
  by_cases hintra : r.intra = true
  · have hcoded : r.lumaCoded = fun _ => (List.range 16).any fun b => someNonzero (r.coef .luma b) := by
      funext b8
      rw [MbRecord.lumaCoded, if_pos hintra]
    rw [if_pos hintra, hcoded]
    cases (List.range 16).any fun b => someNonzero (r.coef .luma b) <;> rfl
  · have hcoded : r.lumaCoded = fun b8 => (List.range 4).any fun i => someNonzero (r.coef .luma (4 * b8 + i)) := by
      funext b8
      rw [MbRecord.lumaCoded, if_neg hintra]
    rw [if_neg hintra, hcoded]
    rfl

theorem MbRecord.lumaCoded_iff {r : MbRecord} {b8 : Nat} (h : b8 < 4) : r.lumaCoded b8 = true ↔
    ∃ b < 16, (r.intra = true ∨ b / 4 = b8) ∧ ∃ k < 16, vecInt (r.coef .luma b) k ≠ 0 := by
  unfold MbRecord.lumaCoded
  by_cases hintra : r.intra = true
  · rw [if_pos hintra]
    simp only [List.any_eq_true, List.mem_range, someNonzero_iff, hintra, true_or, true_and]
  · rw [if_neg hintra]
    simp only [List.any_eq_true, List.mem_range, someNonzero_iff, hintra, Bool.false_eq_true, false_or]
    constructor
    · rintro ⟨i, hi, hne⟩
      exact ⟨4 * b8 + i, by omega, by omega, hne⟩
    · rintro ⟨b, hb, hb8, hne⟩
      refine ⟨b % 4, by omega, ?_⟩
      rwa [show 4 * b8 + b % 4 = b by omega]

theorem cbpChroma_le (r : MbRecord) : cbpChroma r ≤ 2 := by
  unfold cbpChroma
  split
  · exact Nat.le_refl 2
  · split <;> decide

theorem codedBlockPattern_parts (r : MbRecord) : codedBlockPattern r ≤ 47 ∧ codedBlockPattern r % 16 = cbpLuma r ∧
    codedBlockPattern r / 16 = cbpChroma r := by
  have hluma := nibble_le r.lumaCoded
  have hchroma := cbpChroma_le r
  rw [← cbpLuma_eq] at hluma
  unfold codedBlockPattern
  omega

theorem toNat_toWord_of_lt {n : Nat} (h : n < 4294967296) : (toWord n).toNat = n := by
  rw [toWord, BitVec.ofInt_natCast, BitVec.toNat_ofNat]
  exact Nat.mod_eq_of_lt h

theorem toNat_toWord_codedBlockPattern (r : MbRecord) : (toWord (codedBlockPattern r)).toNat = codedBlockPattern r :=
  toNat_toWord_of_lt (Nat.lt_of_le_of_lt (codedBlockPattern_parts r).1 (by decide))

/-- Some chroma block has a coefficient that is not 0. -/
def MbRecord.ChromaAc (r : MbRecord) : Prop := ∃ c ∈ [Comp.cb, .cr], ∃ b < 4, ∃ k < 16, vecInt (r.coef c b) k ≠ 0

/-- Some chroma DC block has a coefficient that is not 0. -/
def MbRecord.ChromaDcs (r : MbRecord) : Prop := ∃ c ∈ [Comp.cb, .cr], ∃ k < 4, vecInt (r.dcc c) k ≠ 0

theorem cbpChroma_eq (r : MbRecord) [Decidable r.ChromaAc] [Decidable r.ChromaDcs] :
    cbpChroma r = if r.ChromaAc then 2 else if r.ChromaDcs then 1 else 0 := by
  unfold cbpChroma
  refine ite_congr ?_ (fun _ => rfl) fun _ => ite_congr ?_ (fun _ => rfl) fun _ => rfl
  · simp only [MbRecord.ChromaAc, List.any_eq_true, List.mem_range, someNonzero_iff]
  · simp only [MbRecord.ChromaDcs, List.any_eq_true, someNonzero_iff]

/-! ### The blocks and pattern of a coded macroblock (45 R345, R350) -/

theorem sandwich2_congr (t : Nat → Nat → Int) {x y : Nat → Nat → Int} (h : ∀ i < 2, ∀ j < 2, x i j = y i j) (i j : Nat) :
    sandwich2 t x i j = sandwich2 t y i j := by
  simp only [sandwich2, h 0 (by decide) 0 (by decide), h 0 (by decide) 1 (by decide), h 1 (by decide) 0 (by decide),
    h 1 (by decide) 1 (by decide)]

theorem encodeRecord_intra (a : EncodeArgs) : (encodeRecord a).intra = a.intra := rfl

/-- The record formed for macroblock ARG0 has the blocks and pattern that the transform rules give. -/
theorem State.Forms.quantisedAs {s : State} {r : MbRecord} (h : s.Forms r) : s.QuantisedAs r := by
  obtain ⟨r₁, t, htrans, -, rfl⟩ := h
  obtain ⟨⟨w, hblock, hcoef, hlumaDc, hchromaDc⟩, hrest⟩ := encodeTransform_eq_ok htrans
  have hintra : r₁.intra = s.encodeArgs.intra := by rw [hrest, encodeRecord_intra]
  have hvalue (c : Comp) (b : Nat) (hb : b < c.across * c.across) := encodeBlock_eq_ok (hblock c b hb)
  have hdc (c : Comp) (b : Nat) (hb : b < c.across * c.across) :
      (w c b).1 = sandwich cf (s.block s.mArg c b) 0 0 := by
    rw [(hvalue c b hb).1, State.sandwich_samples]
    rfl
  have hac (c : Comp) (b : Nat) (hb : b < c.across * c.across) {i j : Nat} (hi : i < 4) (hj : j < 4) :
      vecInt (r₁.coef c b) (4 * i + j) = quantSpec (compQp s.cfg (s.argInt 3) c) r₁.intra i j
        (takenOut (takesDc r₁.intra c) (sandwich cf (s.block s.mArg c b)) i j) := by
    rw [hcoef c b hb, (hvalue c b hb).2 i hi j hj, State.sandwich_samples, hintra]
    rfl
  obtain ⟨-, hcbpLuma, hcbpChroma⟩ := codedBlockPattern_parts r₁
  classical
  rw [cbpChroma_eq] at hcbpChroma
  refine ⟨fun b hb i hi j hj => hac .luma b hb hi hj, fun i hi j hj => ?_, fun c hc => ⟨fun b hb i hi j hj => ?_,
    fun i hi j hj => ?_⟩, fun b8 hb8 => ?_, fun h => ?_, fun h h' => ?_, fun h h' => ?_⟩
  · change vecInt r₁.dcY (4 * i + j) = _
    rw [encodeLumaDc_eq_ok hlumaDc hi hj, ← hintra]
    refine ite_congr rfl (fun _ => ?_) fun _ => rfl
    rw [sandwich_congr hMat fun a ha b hb => hdc .luma (blkAt b a) (blkAt_lt b hb a ha)]
    rfl
  · cases c with
    | luma => exact absurd hc (by decide)
    | cb => exact hac .cb b hb hi hj
    | cr => exact hac .cr b hb hi hj
  · have hb {a b : Nat} (ha : a < 2) (hb : b < 2) : 2 * a + b < c.across * c.across := by
      cases c with
      | luma => exact absurd hc (by decide)
      | cb | cr =>
        change 2 * a + b < 4
        omega
    change vecInt (r₁.dcc c) (2 * i + j) = dcQuantSpec (qpcSpec s.cfg (s.argInt 3)) r₁.intra _
    rw [(hchromaDc c hc).value hi hj, ← hintra, sandwich2_congr h2Mat fun a ha b hb' => hdc c (2 * a + b) (hb ha hb')]
    rfl
  · change ((toWord (codedBlockPattern r₁)).toNat % 16).testBit b8 = true ↔ _
    rw [toNat_toWord_codedBlockPattern, hcbpLuma, cbpLuma_eq, nibble_testBit _ hb8]
    exact MbRecord.lumaCoded_iff hb8
  · change (toWord (codedBlockPattern r₁)).toNat / 16 = 2
    rw [toNat_toWord_codedBlockPattern, hcbpChroma]
    exact if_pos h
  · change (toWord (codedBlockPattern r₁)).toNat / 16 = 1
    rw [toNat_toWord_codedBlockPattern, hcbpChroma]
    exact (if_neg h).trans (if_pos h')
  · change (toWord (codedBlockPattern r₁)).toNat / 16 = 0
    rw [toNat_toWord_codedBlockPattern, hcbpChroma]
    exact (if_neg h).trans (if_neg h')

/-! ### The record that the writing of a macroblock_layer leaves (45 R352) -/

/-- `q` is `r` but for the fields that the writing of its macroblock_layer sets. -/
def MbRecord.WrittenTo (r q : MbRecord) : Prop :=
  q = { r with qp := q.qp, mvdx := q.mvdx, mvdy := q.mvdy, tcy := q.tcy, tcc := q.tcc }

theorem MbRecord.WrittenTo.trans {r q p : MbRecord} (h : r.WrittenTo q) (h' : q.WrittenTo p) : r.WrittenTo p := by
  unfold MbRecord.WrittenTo at *
  rw [h', h]

theorem MbRecord.writtenTo_setTc (r : MbRecord) (c : Comp) (b n : Nat) : r.WrittenTo (r.setTc c b n) := by
  cases c <;> rfl

theorem blockItems_writtenTo (s : State) (m : Nat) (l : List (Comp × Nat)) (r : MbRecord) :
    r.WrittenTo (blockItems s m l r).2 := by
  induction l generalizing r with
  | nil => rfl
  | cons cb rest ih => exact (r.writtenTo_setTc cb.1 cb.2 _).trans (ih _)

theorem predictionItems_writtenTo (s : State) (a : EncodeArgs) (r : MbRecord) :
    r.WrittenTo (predictionItems s a r).2 := by
  unfold predictionItems
  split
  · rfl
  · dsimp only
    split
    · rfl
    · rfl

theorem layerItems_writtenTo (s : State) (a : EncodeArgs) (r : MbRecord) : r.WrittenTo (layerItems s a r).2 := by
  have hqp (q : Word) : r.WrittenTo { (predictionItems s a r).2 with qp := q } :=
    (predictionItems_writtenTo s a r).trans rfl
  unfold layerItems
  dsimp only
  split
  · exact ((hqp _).trans (blockItems_writtenTo ..)).trans (blockItems_writtenTo ..)
  · exact hqp _

theorem MbRecord.WrittenTo.quantisedAs {s : State} {r q : MbRecord} (h : r.WrittenTo q) (hr : s.QuantisedAs r) :
    s.QuantisedAs q.coded := by
  rw [h]
  exact hr

/-! ### MB_ENCODE completed -/

/-- The state, BSBUF apart, that MB_ENCODE leaves when it has written the bits `bs` of the record `r`. -/
def State.encoded (s : State) (r : MbRecord) (bs : List Bool) : State :=
  (((s.advance bs.length).setRecord s.mArg (layerItems s s.encodeArgs r).2.coded).setResList 0
    (mbResults bs.length (layerItems s s.encodeArgs r).2.coded)).succeed

theorem exec_mbEncode_completed {s t : State} (h : exec .mbEncode s = .next t) (hstatus : t.status = 0) :
    ∃ r bs, s.EncodeReady ∧ s.Forms r ∧ itemsBits (layerItems s s.encodeArgs r).1 = some bs ∧ s.Room bs.length ∧
      t = s.leaves (s.encoded r bs) bs := by
  obtain ⟨u, bs, hend, rfl⟩ := ended_of_exec h
  cases hend with
  | done heff =>
    cases heff with
    | encode hready hforms hbits hroom => exact ⟨_, _, hready, hforms, hbits, hroom, rfl⟩
    | query hi | read hi | write hi | dc _ hi => exact absurd hi (by decide)
  | clean => exact (State.fail_status_ne_zero s _ hstatus).elim
  | dirty hws => cases hws
  | @failed e pout => exact (State.failMb_status_ne_zero (s.spoil (mbWrites s.mArg pout)) e hstatus).elim

theorem State.encoded_record {s : State} {r : MbRecord} {bs : List Bool} (hm : s.mArg < s.mbs.length) :
    (s.leaves (s.encoded r bs) bs).record s.mArg = (layerItems s s.encodeArgs r).2.coded := by
  have hm' : s.mArg < (s.advance bs.length).mbs.length := hm
  rw [State.leaves_record, State.encoded, State.succeed_setRecord_record hm']

/-- Settles O50, by what the transform stage answers, which the writing of the macroblock_layer keeps. -/
theorem mbEncodeQuantises : Obligations.MbEncodeQuantises := by
  intro s t hgrid hstore hexec hstatus
  obtain ⟨r, bs, hready, hforms, -, -, rfl⟩ := exec_mbEncode_completed hexec hstatus
  rw [State.encoded_record (hready.1.bounds hgrid hstore).1]
  exact (layerItems_writtenTo s s.encodeArgs r).quantisedAs hforms.quantisedAs

end Sys2Proof.Machine
end

section
/-! PROOFS. The transform stage of MB_ENCODE completes for samples that are differences of 8-bit samples, and its
coefficients are bounded (45 R350). -/

namespace Sys2Proof.Machine

/-! ### The samples -/

theorem Comp.viewSide_eq (c : Comp) : viewSide c.plane = 4 * c.across := by cases c <;> rfl

theorem State.SmallSamples.bounded {s : State} {m : Nat} (h : s.SmallSamples m) (c : Comp) {b : Nat}
    (hb : b < c.across * c.across) : (s.samples m c b).Bounded 255 := by
  obtain ⟨hx, hy⟩ := Comp.bx_by_lt hb
  have hside := c.viewSide_eq
  refine Mat.ofFn_bounded fun k hk => ?_
  have habs := h c.plane (4 * c.by b + k / 4) (by omega) (4 * c.bx b + k % 4) (by omega)
  have habs' : (s.pinAt c.plane (s.viewRow c.plane m (4 * c.by b + k / 4))
    (s.viewCol c.plane m (4 * c.bx b + k % 4))).toInt.natAbs ≤ 255 := habs
  omega

/-! ### One block -/

theorem Mat.Bounded.mono {m : Mat} {B C : Int} (h : m.Bounded B) (hBC : B ≤ C) : m.Bounded C := fun i j => by
  have := h i j
  omega

theorem Mat.Bounded.natAbs_toVec_le {m : Mat} {B : Nat} (h : m.Bounded B) (hm : m.InRange) {k : Nat} (hk : k < 16) :
    (vecInt m.toVec k).natAbs ≤ B := by
  have hval : vecInt m.toVec k = m.entry (k / 4) (k % 4) := by
    rw [← hm.mat4_toVec_eq (by omega) (by omega), show 4 * (k / 4) + k % 4 = k by omega]
  have := h (k / 4) (k % 4)
  omega

/-- The DC term is the sum of sixteen samples (44 R271). -/
theorem sandwich_cf_zero_bounds {x : Mat} {B : Int} (hx : x.Bounded B) :
    -(16 * B) ≤ sandwich cf x.entry 0 0 ∧ sandwich cf x.entry 0 0 ≤ 16 * B := by
  have hrow (a : Nat) (_ : a < 4) : -(4 * B) ≤ sum4 (x.entry a) ∧ sum4 (x.entry a) ≤ 4 * B := by
    have h0 := hx a 0
    have h1 := hx a 1
    have h2 := hx a 2
    have h3 := hx a 3
    rw [sum4]
    omega
  have hsum : sandwich cf x.entry 0 0 = sum4 fun a => sum4 (x.entry a) := by simp [sandwich, sum4, cf]
  have h0 := hrow 0 (by decide)
  have h1 := hrow 1 (by decide)
  have h2 := hrow 2 (by decide)
  have h3 := hrow 3 (by decide)
  rw [hsum, sum4]
  omega

theorem encodeBlock_ok {x : Mat} (hx : x.Bounded 255) {qp : Nat} (hqp : qp ≤ 51) (intra extract : Bool) :
    ∃ out, encodeBlock x qp intra extract = .ok out ∧ (-4080 ≤ out.1 ∧ out.1 ≤ 4080) ∧
      ∀ k < 16, (vecInt out.2 k).natAbs ≤ 7000 := by
  obtain ⟨w, hw, hwB⟩ := coreFwd_ok (by decide) hx
  have htaken : (if extract then w.setDc 0 else w).Bounded (36 * 255) := by
    split
    · exact Mat.setDc_bounded (fun i j _ => hwB i j) (by decide)
    · exact hwB
  obtain ⟨z, hz, hzB⟩ := quant_ok htaken (by decide) hqp intra
  refine ⟨(w.dc, z.toVec), ?_, ?_, fun k hk => ?_⟩
  · simp only [encodeBlock, hw, bind, except_ok_bind, hz]
    rfl
  · have hdc : w.entry 0 0 = sandwich cf x.entry 0 0 := coreFwd_entry hw (by decide) (by decide)
    have hbounds := sandwich_cf_zero_bounds hx
    rw [← hdc] at hbounds
    exact hbounds
  · exact (hzB.mono (C := (7000 : Nat)) (by decide)).natAbs_toVec_le (quant_inRange hz) hk

/-! ### The DC blocks -/

theorem encodeLumaDc_ok {f : Nat → Int} (hf : ∀ b < 16, -4080 ≤ f b ∧ f b ≤ 4080) {qp : Nat} (hqp : qp ≤ 51)
    (intra : Bool) : ∃ v, encodeLumaDc ((List.range 16).map f) qp intra = .ok v ∧
      ∀ k < 16, (vecInt v k).natAbs ≤ 7000 := by
  cases intra with
  | false => exact ⟨zero16, rfl, by decide⟩
  | true =>
    have hmat : (lumaDcMat ((List.range 16).map f)).Bounded 4080 := Mat.ofFn_bounded fun k hk => by
      have hlt := blkAt_lt (k % 4) (by omega) (k / 4) (by omega)
      simpa [hlt] using hf _ hlt
    obtain ⟨y, hy, hyB⟩ := dcFwd4_ok (by decide) hmat
    obtain ⟨z, hz, hzB⟩ := dcQuant4_ok (by decide) hyB hqp true
    refine ⟨z.toVec, ?_, fun k hk => (hzB.mono (C := (7000 : Nat)) (by decide)).natAbs_toVec_le
      (Mat.mapE_inRange (fun h => (dcQuantOne_eq_ok h).1) hz) hk⟩
    simp only [encodeLumaDc, if_true, hy, bind, except_ok_bind, hz]
    rfl

theorem chromaDc_ok {f : Nat → Int} (hf : ∀ b < 4, -4080 ≤ f b ∧ f b ≤ 4080) {qpc : Nat} (hqpc : qpc ≤ 51)
    (intra : Bool) : ∃ y z, hadamard2 ⟨f 0, f 1, f 2, f 3⟩ = .ok y ∧ dcQuant2 y qpc intra = .ok z ∧ z.Bounded 7000 := by
  obtain ⟨y, hy, hyB⟩ := hadamard2_ok (B := 4080) (by decide) _
    (Quad.bounded_mk (hf 0 (by decide)) (hf 1 (by decide)) (hf 2 (by decide)) (hf 3 (by decide)))
  obtain ⟨z, hz, hzB⟩ := dcQuant2_ok (by decide) hyB hqpc intra
  exact ⟨y, z, hy, hz, fun k => by have := hzB k; omega⟩

/-! ### The stage -/

theorem mapErr_ok {α β : Type} {f : α → Except Err β} {xs : List α} (h : ∀ x ∈ xs, ∃ y, f x = .ok y) :
    ∃ ys, mapErr f xs = .ok ys := by
  induction xs with
  | nil => exact ⟨[], rfl⟩
  | cons x xs ih =>
    obtain ⟨y, hy⟩ := h x List.mem_cons_self
    obtain ⟨ys, hys⟩ := ih fun x hx => h x (List.mem_cons_of_mem _ hx)
    refine ⟨y :: ys, ?_⟩
    simp only [mapErr, hy, hys, bind, except_ok_bind]
    rfl

theorem qpcSpec_le (c : Config) (qp : Int) : qpcSpec c qp ≤ 51 := by
  have hall : ∀ k < 52, qpcList.getD k 0 ≤ 51 := by decide
  refine hall _ ?_
  omega

theorem compQp_le (cfg : Config) {qp : Int} (h : qp ≤ 51) (c : Comp) : compQp cfg qp c ≤ 51 := by
  cases c with
  | luma => exact Int.toNat_le.mpr h
  | cb | cr => exact qpcSpec_le cfg qp

section
variable {s : State} {m : Nat} (hsmall : s.SmallSamples m)
include hsmall

theorem encodeChroma_ok {c : Comp} (hc : c ≠ .luma) {qpc : Nat} (hqpc : qpc ≤ 51) (intra : Bool) :
    ∃ out, encodeChroma s m c qpc intra = .ok out := by
  have hblock (b : Nat) (hb : b < 4) := encodeBlock_ok
    (hsmall.bounded c (b := b) (by cases c with | luma => exact absurd rfl hc | cb | cr => exact hb)) hqpc intra true
  obtain ⟨blocks, hblocks⟩ := mapErr_ok (f := fun b => encodeBlock (s.samples m c b) qpc intra true) (xs := List.range 4)
    fun b hb => (hblock b (List.mem_range.mp hb)).imp fun _ h => h.1
  have hdc (b : Nat) (hb : b < 4) : -4080 ≤ (blocks.map (·.1)).getD b 0 ∧ (blocks.map (·.1)).getD b 0 ≤ 4080 := by
    obtain ⟨out, hout, hbound, -⟩ := hblock b hb
    obtain rfl := Except.ok.inj ((mapErr_range_getD hblocks hb noBlock).symm.trans hout)
    rwa [map_fst_getD_noBlock]
  obtain ⟨y, z, hy, hz, -⟩ := chromaDc_ok hdc hqpc intra
  refine ⟨?out, ?answers⟩
  case answers =>
    simp only [encodeChroma, hblocks, bind, except_ok_bind, dcFwd2, hy, hz]
    rfl

theorem encodeTransform_ok {a : EncodeArgs} (ha : a.m = m) (hqp : a.qp ≤ 51) (r : MbRecord) :
    ∃ r₁, encodeTransform s a r = .ok r₁ := by
  subst ha
  have hluma : a.qp.toNat ≤ 51 := Int.toNat_le.mpr hqp
  have hblock (b : Nat) (hb : b < 16) := encodeBlock_ok (hsmall.bounded .luma hb) hluma a.intra a.intra
  obtain ⟨blocks, hblocks⟩ := mapErr_ok
    (f := fun b => encodeBlock (s.samples a.m .luma b) a.qp.toNat a.intra a.intra) (xs := List.range 16)
    fun b hb => (hblock b (List.mem_range.mp hb)).imp fun _ h => h.1
  have hlen := mapErr_length hblocks
  rw [List.length_range] at hlen
  obtain ⟨dcY, hdcY, -⟩ := encodeLumaDc_ok (f := fun b => (blocks.getD b noBlock).1) (fun b hb => by
    obtain ⟨out, hout, hbound, -⟩ := hblock b hb
    obtain rfl := Except.ok.inj ((mapErr_range_getD hblocks hb noBlock).symm.trans hout)
    exact hbound) hluma a.intra
  obtain ⟨⟨dcb, coefb⟩, hb⟩ := encodeChroma_ok hsmall (c := .cb) (by decide) (qpcSpec_le s.cfg a.qp) a.intra
  obtain ⟨⟨dcr, coefr⟩, hr⟩ := encodeChroma_ok hsmall (c := .cr) (by decide) (qpcSpec_le s.cfg a.qp) a.intra
  rw [← map_fst_of_length hlen] at hdcY
  refine ⟨?record, ?answers⟩
  case answers =>
    simp only [encodeTransform, hblocks, bind, except_ok_bind, hdcY, qpChroma_eq_qpcSpec, hb, hr]
    rfl

end

/-! ### The coefficients -/

/-- Every coefficient of the record is at most `B` in magnitude. -/
def MbRecord.Within (r : MbRecord) (B : Nat) : Prop :=
  (∀ c : Comp, ∀ b < c.across * c.across, ∀ k < 16, (vecInt (r.coef c b) k).natAbs ≤ B) ∧
  (∀ k < 16, (vecInt r.dcY k).natAbs ≤ B) ∧ ∀ c : Comp, ∀ k < 4, (vecInt (r.dcc c) k).natAbs ≤ B

/-- No DC term stands in a block whose DC term is coded in a DC block, and an inter macroblock has no luma DC block. -/
def MbRecord.DcApart (r : MbRecord) : Prop :=
  (∀ c : Comp, takesDc r.intra c = true → ∀ b < c.across * c.across, vecInt (r.coef c b) 0 = 0) ∧
  (r.intra = false → r.dcY = zero16)

theorem quantSpec_zero (qp : Nat) (intra : Bool) (i j : Nat) : quantSpec qp intra i j 0 = 0 := by
  have hpow : (0 : Int) < 2 ^ (15 + qp / 6) := by positivity
  have hround : 0 ≤ roundOffset qp intra ∧ roundOffset qp intra < 2 ^ (15 + qp / 6) := by
    unfold roundOffset
    cases intra <;> simp only [if_true, if_false, Bool.false_eq_true] <;> omega
  rw [quantSpec, show absInt 0 = 0 from rfl, Int.zero_mul, Int.zero_add, Int.ediv_eq_zero_of_lt hround.1 hround.2,
    Int.mul_zero]

section
variable {s : State} {a : EncodeArgs} {r : MbRecord} {w : Comp → Nat → Int × Vec16} (h : s.Transformed a r w)
include h

theorem State.Transformed.within (hsmall : s.SmallSamples a.m) (hqp : a.qp ≤ 51) : r.Within 7000 := by
  have hbounds (c : Comp) (b : Nat) (hb : b < c.across * c.across) : (-4080 ≤ (w c b).1 ∧ (w c b).1 ≤ 4080) ∧
      ∀ k < 16, (vecInt (w c b).2 k).natAbs ≤ 7000 := by
    obtain ⟨out, hout, hbound⟩ := encodeBlock_ok (hsmall.bounded c hb) (compQp_le s.cfg hqp c) a.intra
      (takesDc a.intra c)
    obtain rfl := Except.ok.inj ((h.block c b hb).symm.trans hout)
    exact hbound
  have hchroma (c : Comp) (hc : c ∈ [Comp.cb, .cr]) (hacross : c.across * c.across = 4) (k : Nat) (hk : k < 4) :
      (vecInt (r.dcc c) k).natAbs ≤ 7000 := by
    obtain ⟨y, z, hy, hz, hv⟩ := h.chromaDc c hc
    obtain ⟨y', z', hy', hz', hbound⟩ := chromaDc_ok (f := fun b => (w c b).1)
      (fun b hb => (hbounds c b (by omega)).1) (qpcSpec_le s.cfg a.qp) a.intra
    obtain rfl := Except.ok.inj (hy.symm.trans hy')
    obtain rfl := Except.ok.inj (hz.symm.trans hz')
    have := hbound k
    rw [hv, vecInt_vec4 _ _ hk, Quad.toList_getD _ hk, toInt_toWord (dcQuantOne_eq_ok (Quad.mapE_get hz k)).1]
    omega
  refine ⟨fun c b hb k hk => ?_, fun k hk => ?_, fun c k hk => ?_⟩
  · rw [h.coef c b hb]
    exact (hbounds c b hb).2 k hk
  · obtain ⟨v, hv, hbound⟩ := encodeLumaDc_ok (f := fun b => (w .luma b).1) (fun b hb => (hbounds .luma b hb).1)
      (Int.toNat_le.mpr hqp) a.intra
    obtain rfl := Except.ok.inj (h.lumaDc.symm.trans hv)
    exact hbound k hk
  · cases c with
    | luma => exact hchroma .cb (by decide) rfl k hk
    | cb => exact hchroma .cb (by decide) rfl k hk
    | cr => exact hchroma .cr (by decide) rfl k hk

theorem State.Transformed.dcApart (hintra : r.intra = a.intra) : r.DcApart := by
  constructor
  · intro c hc b hb
    have hval := (encodeBlock_eq_ok (h.block c b hb)).2 0 (by decide) 0 (by decide)
    rw [h.coef c b hb]
    refine hval.trans ?_
    rw [← hintra, hc]
    exact quantSpec_zero _ _ _ _
  · intro hinter
    have hdc := h.lumaDc
    rw [← hintra, hinter] at hdc
    exact (Except.ok.inj hdc).symm

end

end Sys2Proof.Machine
end

section
/-! PROOFS. The blocks and counts of a record (10 R37), and the scan lists of its blocks (43 R231). -/

namespace Sys2Proof.Machine

/-! ### Elements of a record -/

theorem vector_getD {α : Type} {n : Nat} (v : Vector α n) {i : Nat} (hi : i < n) (d : α) : v.getD i d = v[i] := by
  simp [Vector.getD, hi]

theorem vec_ext {n : Nat} {u v : Vector Word n} (h : ∀ k < n, vecInt u k = vecInt v k) : u = v := by
  refine Vector.ext fun k hk => ?_
  have hval := h k hk
  rw [vecInt, vecInt, vector_getD _ hk, vector_getD _ hk] at hval
  exact BitVec.eq_of_toInt_eq hval

theorem vector_getD_set {α : Type} {n : Nat} (v : Vector α n) {i : Nat} (hi : i < n) (x d : α) (j : Nat) :
    (v.setIfInBounds i x).getD j d = if j = i then x else v.getD j d := by
  rcases Nat.lt_or_ge j n with hj | hj
  · rw [vector_getD _ hj, vector_getD _ hj, Vector.getElem_setIfInBounds hj]
    simp only [eq_comm]
  · rw [if_neg (by omega)]
    simp [Vector.getD, Nat.not_lt.mpr hj]

theorem toInt_toWord_of_le {n : Nat} (h : n ≤ 2147483647) : (toWord n).toInt = n := by
  refine toInt_toWord ?_
  rw [inInt32, within_eq_true_iff]
  omega

section
variable (r : MbRecord) {c c' : Comp} {b b' : Nat}

theorem MbRecord.tc_setTc (hb : b < c.across * c.across) {n : Nat} (hn : n ≤ 2147483647) :
    (r.setTc c b n).tc c' b' = if (c', b') = (c, b) then (n : Int) else r.tc c' b' := by
  have hword := toInt_toWord_of_le hn
  have helem {k : Nat} (v : Vector Word k) (hk : b < k) :
      vecInt (v.setIfInBounds b (toWord n)) b' = if b' = b then (n : Int) else vecInt v b' := by
    rw [vecInt, vector_getD_set _ hk]
    split
    · exact hword
    · rfl
  cases c with
  | luma =>
    have hy := helem r.tcy hb
    cases c' with
    | luma => simpa [MbRecord.tc, MbRecord.setTc] using hy
    | cb | cr => simp [MbRecord.tc, MbRecord.setTc]
  | cb =>
    have hc := helem (r.tcc.getD 0 zero4) hb
    cases c' with
    | cb => simpa [MbRecord.tc, MbRecord.setTc, vector_getD_set, zero4] using hc
    | luma | cr => simp [MbRecord.tc, MbRecord.setTc, vector_getD_set]
  | cr =>
    have hc := helem (r.tcc.getD 1 zero4) hb
    cases c' with
    | cr => simpa [MbRecord.tc, MbRecord.setTc, vector_getD_set, zero4] using hc
    | luma | cb => simp [MbRecord.tc, MbRecord.setTc, vector_getD_set]

theorem MbRecord.coef_setTc (n : Nat) : (r.setTc c b n).coef c' b' = r.coef c' b' := by
  cases c <;> cases c' <;> rfl

theorem MbRecord.coef_setCoef (hb : b < c.across * c.across) (v : Vec16) :
    (r.setCoef c b v).coef c' b' = if (c', b') = (c, b) then v else r.coef c' b' := by
  cases c with
  | luma =>
    have hb : b < 16 := hb
    cases c' <;> simp [MbRecord.coef, MbRecord.setCoef, vector_getD_set, hb]
  | cb | cr =>
    have hb : b < 4 := hb
    cases c' <;> simp [MbRecord.coef, MbRecord.setCoef, vector_getD_set, hb]

theorem MbRecord.tc_setCoef (v : Vec16) : (r.setCoef c b v).tc c' b' = r.tc c' b' := by
  cases c <;> cases c' <;> rfl

theorem MbRecord.dcc_setDcc {c c' : Comp} (v : Vec4) :
    (r.setDcc c v).dcc c' = if c'.chroma = c.chroma then v else r.dcc c' := by
  have hlt : c.chroma < 2 := by cases c <;> decide
  rw [MbRecord.dcc, MbRecord.setDcc, vector_getD_set _ hlt]
  rfl

end

/-- Two records with the same fields, but for the blocks, and the same blocks. -/
theorem MbRecord.eq_of_blocks {r q : MbRecord}
    (h : q = { r with coefY := q.coefY, dcY := q.dcY, coefC := q.coefC, dcC := q.dcC })
    (hcoef : ∀ c : Comp, ∀ b < c.across * c.across, q.coef c b = r.coef c b) (hdcY : q.dcY = r.dcY)
    (hdcc : ∀ c, q.dcc c = r.dcc c) : q = r := by
  have hy : q.coefY = r.coefY := Vector.ext fun b hb => by
    have := hcoef .luma b hb
    rwa [MbRecord.coef, MbRecord.coef, vector_getD _ hb, vector_getD _ hb] at this
  have hc : q.coefC = r.coefC := Vector.ext fun c hc => Vector.ext fun b hb => by
    have hcb := hcoef .cb b hb
    have hcr := hcoef .cr b hb
    simp only [MbRecord.coef, vector_getD _ (show 0 < 2 by decide), vector_getD _ (show 1 < 2 by decide),
      vector_getD _ hb] at hcb hcr
    interval_cases c
    · exact hcb
    · exact hcr
  have hdc : q.dcC = r.dcC := Vector.ext fun c hc => by
    have hcb := hdcc .cb
    have hcr := hdcc .cr
    simp only [MbRecord.dcc, Comp.chroma, vector_getD _ (show 0 < 2 by decide),
      vector_getD _ (show 1 < 2 by decide)] at hcb hcr
    interval_cases c
    · exact hcb
    · exact hcr
  rw [h, hy, hc, hdc, hdcY]

/-! ### The scan list of a block (43 R231) -/

/-- The levels of a block that its code holds, in scan order. -/
def MbRecord.scan (r : MbRecord) (c : Comp) (b : Nat) : List Int := scanList (r.coef c b) (blockSkip r.intra c)

theorem blockSkip_eq (intra : Bool) (c : Comp) : blockSkip intra c = if takesDc intra c then 1 else 0 := by
  cases c <;> rfl

theorem blockSkip_le (intra : Bool) (c : Comp) : blockSkip intra c ≤ 1 := by
  rw [blockSkip_eq]
  split <;> decide

theorem scanList_length (v : Vec16) {skip : Nat} (h : skip ≤ 1) : (scanList v skip).length = 16 - skip := by
  rw [scanList_eq v h, List.length_map, List.length_range]

theorem scanList_natAbs_le {v : Vec16} {skip B : Nat} (h : skip ≤ 1) (hv : ∀ k < 16, (vecInt v k).natAbs ≤ B) :
    ∀ x ∈ scanList v skip, x.natAbs ≤ B := by
  have hlt : ∀ k < 16, zigzag.getD k 0 < 16 := by decide
  intro x hx
  rw [scanList_eq v h, List.mem_map] at hx
  obtain ⟨k, hk, rfl⟩ := hx
  have := List.mem_range.mp hk
  exact hv _ (hlt _ (by omega))

/-- A block without a DC term of its own is given back by its scan list. -/
theorem unscan_scanList {v : Vec16} {skip : Nat} (hskip : skip ≤ 1) (h : skip = 1 → vecInt v 0 = 0) :
    unscan (scanList v skip) skip = v := by
  refine vec_ext fun k hk => ?_
  rw [vecInt_unscan_scanList v hskip k hk]
  split
  · next hzero => rw [hzero.1, h hzero.2]
  · rfl

theorem zigzag_perm : zigzag.Perm (List.range 16) := by decide

theorem zigzag_eq_cons : zigzag = 0 :: zigzag.drop 1 := rfl

/-- The count of a block's scan list is the number of its elements that are not 0 (43 R232). -/
theorem totalCoeff_scanList {v : Vec16} {skip : Nat} (hskip : skip ≤ 1) (h : skip = 1 → vecInt v 0 = 0) :
    totalCoeff (scanList v skip) = ((List.range 16).filter fun k => decide (vecInt v k ≠ 0)).length := by
  have hfull : totalCoeff (zigzag.map (vecInt v)) =
      ((List.range 16).filter fun k => decide (vecInt v k ≠ 0)).length := by
    rw [totalCoeff_eq_filter, List.filter_map, List.length_map]
    exact (zigzag_perm.filter _).length_eq
  rcases Nat.le_one_iff_eq_zero_or_eq_one.mp hskip with rfl | rfl
  · exact hfull
  · rw [← hfull, scanList, totalCoeff_eq_filter, totalCoeff_eq_filter]
    conv_rhs => rw [zigzag_eq_cons, List.map_cons, h rfl]
    rfl

theorem MbRecord.DcApart.skip {r : MbRecord} (h : r.DcApart) (c : Comp) {b : Nat} (hb : b < c.across * c.across)
    (hskip : blockSkip r.intra c = 1) : vecInt (r.coef c b) 0 = 0 := by
  refine h.1 c ?_ b hb
  rw [blockSkip_eq] at hskip
  by_contra hno
  rw [if_neg hno] at hskip
  cases hskip

section
variable {r : MbRecord} (h : r.DcApart) (c : Comp) {b : Nat} (hb : b < c.across * c.across)
include h hb

theorem MbRecord.DcApart.unscan_scan : unscan (r.scan c b) (blockSkip r.intra c) = r.coef c b :=
  unscan_scanList (blockSkip_le _ _) (h.skip c hb)

theorem MbRecord.DcApart.totalCoeff_scan : totalCoeff (r.scan c b) =
    ((List.range 16).filter fun k => decide (vecInt (r.coef c b) k ≠ 0)).length :=
  totalCoeff_scanList (blockSkip_le _ _) (h.skip c hb)

end

theorem MbRecord.scan_length (r : MbRecord) (c : Comp) (b : Nat) : (r.scan c b).length = 16 - blockSkip r.intra c :=
  scanList_length _ (blockSkip_le _ _)

/-! ### The counts that the writing of blocks leaves (45 R352) -/

theorem MbRecord.intra_setTc (r : MbRecord) (c : Comp) (b n : Nat) : (r.setTc c b n).intra = r.intra := by cases c <;> rfl

theorem MbRecord.scan_setTc (r : MbRecord) (c : Comp) (b n : Nat) : (r.setTc c b n).scan = r.scan := by
  funext c' b'
  rw [MbRecord.scan, MbRecord.scan, MbRecord.coef_setTc, MbRecord.intra_setTc]

theorem totalCoeff_scan_le (r : MbRecord) (c : Comp) (b : Nat) :
    totalCoeff (r.scan c b) ≤ 16 - blockSkip r.intra c :=
  (totalCoeff_le _).trans (r.scan_length c b).le

theorem blockItems_cons (s : State) (m : Nat) (c : Comp) (b : Nat) (rest : List (Comp × Nat)) (r : MbRecord) :
    blockItems s m ((c, b) :: rest) r =
      (cavlcItems (r.scan c b) (r.scan c b).length (s.nc r m c b) ++
        (blockItems s m rest (r.setTc c b (totalCoeff (r.scan c b)))).1,
        (blockItems s m rest (r.setTc c b (totalCoeff (r.scan c b)))).2) := by
  rw [r.scan_length]
  rfl

/-- Blocks that exist (45 R321, R322). -/
def ValidBlocks (l : List (Comp × Nat)) : Prop := ∀ cb ∈ l, cb.2 < cb.1.across * cb.1.across

theorem blockItems_tc (s : State) (m : Nat) {l : List (Comp × Nat)} (hl : ValidBlocks l) (r : MbRecord) (c : Comp)
    (b : Nat) : (blockItems s m l r).2.tc c b = if (c, b) ∈ l then (totalCoeff (r.scan c b) : Int) else r.tc c b := by
  induction l generalizing r with
  | nil => rfl
  | cons cb rest ih =>
    obtain ⟨c', b'⟩ := cb
    obtain ⟨hb, hrest⟩ := List.forall_mem_cons.mp hl
    have hle := totalCoeff_scan_le r c' b'
    rw [blockItems_cons, ih hrest, MbRecord.scan_setTc, MbRecord.tc_setTc r hb (by omega)]
    by_cases hmem : (c, b) ∈ rest
    · rw [if_pos hmem, if_pos (List.mem_cons_of_mem _ hmem)]
    · rw [if_neg hmem]
      by_cases heq : (c, b) = (c', b')
      · cases heq
        rw [if_pos rfl, if_pos List.mem_cons_self]
      · rw [if_neg heq, if_neg (by simp [heq, hmem])]

theorem validBlocks_codedLuma (cl : Nat) : ValidBlocks (codedLuma cl) := by
  intro cb hcb
  obtain ⟨b, hb, rfl⟩ := List.mem_map.mp hcb
  exact List.mem_range.mp (List.mem_of_mem_filter hb)

theorem mem_codedLuma {cl : Nat} {c : Comp} {b : Nat} :
    (c, b) ∈ codedLuma cl ↔ c = .luma ∧ b < 16 ∧ cl.testBit (b / 4) = true := by
  simp only [codedLuma, List.mem_map, List.mem_filter, List.mem_range, Prod.mk.injEq]
  constructor
  · rintro ⟨_, ⟨hb, hbit⟩, rfl, rfl⟩
    exact ⟨rfl, hb, hbit⟩
  · rintro ⟨rfl, hb, hbit⟩
    exact ⟨b, ⟨hb, hbit⟩, rfl, rfl⟩

theorem mem_codedChromaAc {cc : Nat} {c : Comp} {b : Nat} :
    (c, b) ∈ codedChromaAc cc ↔ cc = 2 ∧ c ∈ [Comp.cb, .cr] ∧ b < 4 := by
  unfold codedChromaAc
  split
  · next h =>
    simp only [h, List.mem_append, List.mem_map, List.mem_range, Prod.mk.injEq, true_and, List.mem_cons,
      List.not_mem_nil, or_false]
    constructor
    · rintro (⟨_, hb, rfl, rfl⟩ | ⟨_, hb, rfl, rfl⟩)
      · exact ⟨.inl rfl, hb⟩
      · exact ⟨.inr rfl, hb⟩
    · rintro ⟨rfl | rfl, hb⟩
      · exact .inl ⟨b, hb, rfl, rfl⟩
      · exact .inr ⟨b, hb, rfl, rfl⟩
  · next h => simp [h]

theorem validBlocks_codedChromaAc (cc : Nat) : ValidBlocks (codedChromaAc cc) := by
  rintro ⟨c, b⟩ hcb
  obtain ⟨-, hc, hb⟩ := mem_codedChromaAc.mp hcb
  cases c with
  | luma => exact absurd hc (by decide)
  | cb | cr => exact hb

end Sys2Proof.Machine
end

section
/-! PROOFS. The residual of a record is decoded to its blocks and counts (30 R113; 45 R352, R360). -/

namespace Sys2Proof.Machine

/-! ### Decoders in sequence -/

theorem decode_bind {α β : Type} {x : Except Err (α × Stream)} {f : α → Stream → Except Err (β × Stream)} {a : α} {b : β}
    {st : Stream} {xs ys : List Bool} (hx : x = .ok (a, st.skip xs.length))
    (hf : f a (st.skip xs.length) = .ok (b, (st.skip xs.length).skip ys.length)) :
    x.bind (fun p => f p.1 p.2) = .ok (b, st.skip (xs ++ ys).length) := by
  rw [hx, except_ok_bind, hf, Stream.skip_skip, List.length_append, Nat.add_comm]

/-! ### Records that agree but for their blocks -/

/-- `q` is `r` but for its blocks. -/
def MbRecord.SameFields (r q : MbRecord) : Prop :=
  q = { r with coefY := q.coefY, dcY := q.dcY, coefC := q.coefC, dcC := q.dcC }

section
variable {r q : MbRecord} (h : r.SameFields q)
include h

theorem MbRecord.SameFields.intra : q.intra = r.intra := (congrArg MbRecord.intra h).trans rfl

theorem MbRecord.SameFields.nc (s : State) (m : Nat) (c : Comp) (b : Nat) : s.nc q m c b = s.nc r m c b :=
  (congrArg (s.nc · m c b) h).trans rfl

theorem MbRecord.SameFields.setTc (c : Comp) (b n : Nat) : (r.setTc c b n).SameFields (q.setTc c b n) := by
  unfold MbRecord.SameFields at *
  rw [h]
  cases c <;> rfl

theorem MbRecord.SameFields.setCoef (c : Comp) (b : Nat) (v : Vec16) : r.SameFields (q.setCoef c b v) := by
  unfold MbRecord.SameFields at *
  rw [h]
  cases c <;> rfl

end

/-- The writing of blocks changes their counts alone. -/
def MbRecord.SameBlocks (r q : MbRecord) : Prop := q = { r with tcy := q.tcy, tcc := q.tcc }

theorem MbRecord.SameBlocks.trans {r q p : MbRecord} (h : r.SameBlocks q) (h' : q.SameBlocks p) : r.SameBlocks p := by
  unfold MbRecord.SameBlocks at *
  rw [h', h]

theorem blockItems_sameBlocks (s : State) (m : Nat) (l : List (Comp × Nat)) (r : MbRecord) :
    r.SameBlocks (blockItems s m l r).2 := by
  induction l generalizing r with
  | nil => rfl
  | cons cb rest ih =>
    refine MbRecord.SameBlocks.trans ?_ (ih _)
    cases cb.1 <;> rfl

section
variable {r q : MbRecord} (h : r.WrittenTo q)
include h

theorem MbRecord.WrittenTo.coef (c : Comp) (b : Nat) : q.coef c b = r.coef c b :=
  (congrArg (fun x : MbRecord => x.coef c b) h).trans (by cases c <;> rfl)

theorem MbRecord.WrittenTo.intra : q.intra = r.intra := (congrArg MbRecord.intra h).trans rfl

theorem MbRecord.WrittenTo.dcY : q.dcY = r.dcY := (congrArg MbRecord.dcY h).trans rfl

theorem MbRecord.WrittenTo.dcc (c : Comp) : q.dcc c = r.dcc c := (congrArg (fun x : MbRecord => x.dcc c) h).trans rfl

theorem MbRecord.WrittenTo.dcApart (hr : r.DcApart) : q.DcApart := by
  refine ⟨fun c hc b hb => ?_, fun hinter => ?_⟩
  · rw [h.intra] at hc
    rw [h.coef]
    exact hr.1 c hc b hb
  · rw [h.intra] at hinter
    rw [h.dcY]
    exact hr.2 hinter

end

/-! ### Lists of blocks -/

/-- `p` is `q` with the coefficient blocks of `l` taken from `r`. -/
structure MbRecord.Loads (r q : MbRecord) (l : List (Comp × Nat)) (p : MbRecord) : Prop where
  coef : ∀ c : Comp, ∀ b < c.across * c.across, p.coef c b = if (c, b) ∈ l then r.coef c b else q.coef c b
  dcY : p.dcY = q.dcY
  dcC : p.dcC = q.dcC

theorem setCoef_setTc_dcY (r : MbRecord) (c : Comp) (b n : Nat) (v : Vec16) :
    ((r.setCoef c b v).setTc c b n).dcY = r.dcY ∧ ((r.setCoef c b v).setTc c b n).dcC = r.dcC := by
  cases c <;> exact ⟨rfl, rfl⟩

/-- A list of blocks is decoded to the blocks and counts of the record that was written. -/
theorem decodeBlocks_of_holds (s : State) (m : Nat) {l : List (Comp × Nat)} (hl : ValidBlocks l) {r q : MbRecord}
    {bs : List Bool} {st : Stream} (hsame : r.SameFields q) (hapart : r.DcApart)
    (hbits : itemsBits (blockItems s m l r).1 = some bs) (hst : st.Holds bs) :
    ∃ p, decodeBlocks s m l q st = .ok (p, st.skip bs.length) ∧ (blockItems s m l r).2.SameFields p ∧ r.Loads q l p := by
  induction l generalizing r q bs st with
  | nil =>
    cases hbits
    exact ⟨q, rfl, hsame, fun _ _ _ => rfl, rfl, rfl⟩
  | cons cb rest ih =>
    obtain ⟨c, b⟩ := cb
    obtain ⟨hb, hrest⟩ := List.forall_mem_cons.mp hl
    rw [blockItems_cons] at hbits
    obtain ⟨bx, by', hbx, hby, rfl⟩ := itemsBits_append_eq_some_iff.mp hbits
    obtain ⟨hfirst, hlast⟩ := Stream.holds_append.mp hst
    have hdec := cavlcDecode_of_holds hbx hfirst
    have hlist := r.writtenTo_setTc c b (totalCoeff (r.scan c b))
    obtain ⟨p, hp, hfields, hcoef, hdcY, hdcC⟩ := ih hrest (hsame.setCoef c b (r.coef c b) |>.setTc c b _)
      (hlist.dcApart hapart) hby hlast
    obtain ⟨hkeepY, hkeepC⟩ := setCoef_setTc_dcY q c b (totalCoeff (r.scan c b)) (r.coef c b)
    refine ⟨p, ?_, ?_, fun c' b' hb' => ?_, hdcY.trans hkeepY, hdcC.trans hkeepC⟩
    · rw [decodeBlocks_cons, hsame.intra, hsame.nc, ← r.scan_length c b, hdec, except_ok_bind, hapart.unscan_scan c hb,
        hp, Stream.skip_skip, List.length_append, Nat.add_comm]
    · rw [blockItems_cons]
      exact hfields
    · rw [hcoef c' b' hb', MbRecord.coef_setTc, MbRecord.coef_setTc, MbRecord.coef_setCoef q hb]
      by_cases hmem : (c', b') ∈ rest
      · rw [if_pos hmem, if_pos (List.mem_cons_of_mem _ hmem)]
      · rw [if_neg hmem]
        by_cases heq : (c', b') = (c, b)
        · cases heq
          rw [if_pos rfl, if_pos List.mem_cons_self]
        · rw [if_neg heq, if_neg (by simp [heq, hmem])]

/-! ### DC blocks -/

theorem decodeLumaDc_of_holds (s : State) (m : Nat) {r q : MbRecord} {bs : List Bool} {st : Stream}
    (hsame : r.SameFields q) (hbits : itemsBits (lumaDcItems s m r) = some bs) (hst : st.Holds bs) :
    decodeLumaDc s m q st = .ok (if r.intra then { q with dcY := r.dcY } else q, st.skip bs.length) := by
  unfold lumaDcItems at hbits
  unfold decodeLumaDc
  by_cases hintra : r.intra = true
  · rw [if_pos hintra] at hbits
    rw [if_pos (hsame.intra.trans hintra), if_pos hintra, hsame.nc]
    have hlen : (scanList r.dcY 0).length = 16 := scanList_length _ (by decide)
    have hdec := cavlcDecode_of_holds (cs := scanList r.dcY 0) (by rwa [hlen]) hst
    rw [hlen] at hdec
    have hback : unscan (scanList r.dcY 0) 0 = r.dcY := unscan_scanList (by decide) fun h => absurd h (by decide)
    change (cavlcDecode 16 _ st).bind _ = _
    rw [hdec]
    conv_rhs => rw [← hback]
    rfl
  · rw [if_neg hintra] at hbits
    cases hbits
    rw [if_neg (by rwa [hsame.intra]), if_neg hintra]
    rfl

theorem vec4_rasterList (v : Vec4) : vec4 (fun k => toWord ((rasterList v).getD k 0)) = v := by
  refine vec_ext fun k hk => ?_
  rw [vecInt_vec4 _ _ hk]
  have hget : (rasterList v).getD k 0 = vecInt v k := by interval_cases k <;> rfl
  rw [hget]
  exact toInt_toWord (inInt32_vecInt v k)

theorem decodeChromaDc_of_holds {l : List Comp} {r q : MbRecord} {bs : List Bool} {st : Stream}
    (hbits : itemsBits (l.flatMap fun c => cavlcItems (rasterList (r.dcc c)) 4 (-1)) = some bs) (hst : st.Holds bs) :
    decodeChromaDc l q st = .ok (l.foldl (fun p c => p.setDcc c (r.dcc c)) q, st.skip bs.length) := by
  induction l generalizing q bs st with
  | nil =>
    cases hbits
    rfl
  | cons c rest ih =>
    rw [List.flatMap_cons] at hbits
    obtain ⟨bx, by', hbx, hby, rfl⟩ := itemsBits_append_eq_some_iff.mp hbits
    obtain ⟨hfirst, hlast⟩ := Stream.holds_append.mp hst
    have hdec := cavlcDecode_of_holds (cs := rasterList (r.dcc c)) hbx hfirst
    have hlen : (rasterList (r.dcc c)).length = 4 := rfl
    rw [hlen] at hdec
    rw [decodeChromaDc_cons, hdec, except_ok_bind, vec4_rasterList, ih hby hlast, Stream.skip_skip, List.length_append,
      Nat.add_comm, List.foldl_cons]

/-! ### The residual -/

/-- A record whose blocks are zero. -/
def MbRecord.cleared (r : MbRecord) : MbRecord :=
  { r with coefY := MbRecord.fresh.coefY, dcY := MbRecord.fresh.dcY, coefC := MbRecord.fresh.coefC,
           dcC := MbRecord.fresh.dcC }

theorem MbRecord.cleared_blocks (r : MbRecord) : (∀ c : Comp, ∀ b < c.across * c.across, r.cleared.coef c b = zero16) ∧
    r.cleared.dcY = zero16 ∧ ∀ c, r.cleared.dcc c = zero4 := by
  refine ⟨fun c b hb => ?_, rfl, fun c => by cases c <;> rfl⟩
  cases c with
  | luma =>
    have hb : b < 16 := hb
    interval_cases b <;> rfl
  | cb | cr =>
    have hb : b < 4 := hb
    interval_cases b <;> rfl

/-- Every block that the pattern does not name is zero (45 R345). -/
structure MbRecord.CodedBy (r : MbRecord) (cl cc : Nat) : Prop where
  luma : ∀ b < 16, cl.testBit (b / 4) = false → r.coef .luma b = zero16
  chroma : cc ≠ 2 → ∀ c ∈ [Comp.cb, .cr], ∀ b < 4, r.coef c b = zero16
  chromaDc : cc = 0 → ∀ c, r.dcc c = zero4

theorem MbRecord.CodedBy.zero {r : MbRecord} {cl cc : Nat} (h : r.CodedBy cl cc) {c : Comp} {b : Nat}
    (hb : b < c.across * c.across) (hluma : (c, b) ∉ codedLuma cl) (hchroma : (c, b) ∉ codedChromaAc cc) :
    r.coef c b = zero16 := by
  cases c with
  | luma =>
    refine h.luma b hb (Bool.eq_false_iff.mpr fun hbit => hluma ?_)
    exact mem_codedLuma.mpr ⟨rfl, hb, hbit⟩
  | cb => exact h.chroma (fun hcc => hchroma (mem_codedChromaAc.mpr ⟨hcc, by decide, hb⟩)) _ (by decide) b hb
  | cr => exact h.chroma (fun hcc => hchroma (mem_codedChromaAc.mpr ⟨hcc, by decide, hb⟩)) _ (by decide) b hb

/-- A record with the chroma DC blocks of `r`, when the pattern names them. -/
def MbRecord.loadDcc (r q : MbRecord) (cc : Nat) : MbRecord :=
  (codedChromaDc cc).foldl (fun p c => p.setDcc c (r.dcc c)) q

theorem MbRecord.dcc_loadDcc {r q : MbRecord} {cc : Nat} (h : cc = 0 → ∀ c, r.dcc c = q.dcc c) (c : Comp) :
    (r.loadDcc q cc).dcc c = r.dcc c := by
  unfold MbRecord.loadDcc codedChromaDc
  split
  · simp only [List.foldl_cons, List.foldl_nil, MbRecord.dcc_setDcc]
    cases c <;> rfl
  · next hcc => exact (h (by omega) c).symm

theorem MbRecord.loadDcc_eq (r q : MbRecord) (cc : Nat) : r.loadDcc q cc = { q with dcC := (r.loadDcc q cc).dcC } := by
  unfold MbRecord.loadDcc codedChromaDc
  split <;> rfl

theorem decodeMbResidual_eq (s : State) (m cl cc : Nat) (r : MbRecord) (st : Stream) :
    decodeMbResidual s m cl cc r st = (decodeLumaDc s m r st).bind fun p =>
      (decodeBlocks s m (codedLuma cl) p.1 p.2).bind fun p => (decodeChromaDc (codedChromaDc cc) p.1 p.2).bind fun p =>
        decodeBlocks s m (codedChromaAc cc) p.1 p.2 := rfl

/-- A record whose blocks are zero, but for the luma DC block of an Intra_16x16 macroblock. -/
def MbRecord.onlyLumaDc (r : MbRecord) : MbRecord := if r.intra then { r.cleared with dcY := r.dcY } else r.cleared

theorem MbRecord.onlyLumaDc_blocks {r : MbRecord} (h : r.DcApart) : r.SameFields r.onlyLumaDc ∧
    (∀ c : Comp, ∀ b < c.across * c.across, r.onlyLumaDc.coef c b = zero16) ∧ r.onlyLumaDc.dcY = r.dcY ∧
    ∀ c, r.onlyLumaDc.dcc c = zero4 := by
  obtain ⟨hcoef, hdcY, hdcc⟩ := r.cleared_blocks
  unfold MbRecord.onlyLumaDc
  cases hintra : r.intra with
  | true => exact ⟨rfl, hcoef, rfl, hdcc⟩
  | false => exact ⟨rfl, hcoef, hdcY.trans (h.2 hintra).symm, hdcc⟩

/-- The residual of a record is decoded to its blocks and counts. -/
theorem decodeMbResidual_of_holds (s : State) (m cl cc : Nat) {r : MbRecord} {bs : List Bool} {st : Stream}
    (hapart : r.DcApart) (hcoded : r.CodedBy cl cc) (hbits : itemsBits (residualItems s m cl cc r).1 = some bs)
    (hst : st.Holds bs) :
    decodeMbResidual s m cl cc r.cleared st = .ok ((residualItems s m cl cc r).2, st.skip bs.length) := by
  obtain ⟨bx, b₄, hbx, h₄, rfl⟩ := itemsBits_append_eq_some_iff.mp hbits
  obtain ⟨by', b₃, hby, h₃, rfl⟩ := itemsBits_append_eq_some_iff.mp hbx
  obtain ⟨b₁, b₂, h₁, h₂, rfl⟩ := itemsBits_append_eq_some_iff.mp hby
  simp only [List.append_assoc] at hst ⊢
  obtain ⟨hst₁, hst⟩ := Stream.holds_append.mp hst
  obtain ⟨hst₂, hst⟩ := Stream.holds_append.mp hst
  obtain ⟨hst₃, hst₄⟩ := Stream.holds_append.mp hst
  obtain ⟨hdcFields, hzero, hdcY, hzeroC⟩ := MbRecord.onlyLumaDc_blocks hapart
  have hluma := blockItems_writtenTo s m (codedLuma cl) r
  have hfinal : r.WrittenTo (residualItems s m cl cc r).2 :=
    hluma.trans (blockItems_writtenTo s m (codedChromaAc cc) _)
  have hp₁ : decodeLumaDc s m r.cleared st = .ok (r.onlyLumaDc, st.skip b₁.length) :=
    decodeLumaDc_of_holds s m (q := r.cleared) rfl h₁ hst₁
  obtain ⟨p₂, hp₂, hfields₂, hcoef₂, hdcY₂, hdcC₂⟩ :=
    decodeBlocks_of_holds s m (validBlocks_codedLuma cl) hdcFields hapart h₂ hst₂
  have hp₃ := decodeChromaDc_of_holds (q := p₂) h₃ hst₃
  have hload := r.loadDcc_eq p₂ cc
  have hfields₃ : (blockItems s m (codedLuma cl) r).2.SameFields (r.loadDcc p₂ cc) := by
    unfold MbRecord.SameFields at *
    rw [hload, hfields₂]
  obtain ⟨p₄, hp₄, hfields₄, hcoef₄, hdcY₄, hdcC₄⟩ :=
    decodeBlocks_of_holds s m (validBlocks_codedChromaAc cc) hfields₃ (hluma.dcApart hapart) h₄ hst₄
  have heq : p₄ = (residualItems s m cl cc r).2 := by
    refine MbRecord.eq_of_blocks hfields₄ (fun c b hb => ?_) ?_ fun c => ?_
    · have hcoef₃ : (r.loadDcc p₂ cc).coef c b = p₂.coef c b :=
        (congrArg (fun x : MbRecord => x.coef c b) hload).trans (by cases c <;> rfl)
      rw [hcoef₄ c b hb, hluma.coef, hfinal.coef, hcoef₃, hcoef₂ c b hb, hzero c b hb]
      by_cases hl : (c, b) ∈ codedLuma cl
      · rw [if_pos hl, ite_self]
      · by_cases hc : (c, b) ∈ codedChromaAc cc
        · rw [if_pos hc]
        · rw [if_neg hc, if_neg hl, hcoded.zero hb hl hc]
    · rw [hdcY₄, hfinal.dcY, ← hdcY, ← hdcY₂]
      exact (congrArg MbRecord.dcY hload).trans rfl
    · have hdcc : p₄.dcc c = (r.loadDcc p₂ cc).dcc c := by rw [MbRecord.dcc, hdcC₄, MbRecord.dcc]
      rw [hdcc, hfinal.dcc, MbRecord.dcc_loadDcc fun hcc c => ?_]
      rw [hcoded.chromaDc hcc, ← hzeroC c, MbRecord.dcc, MbRecord.dcc, hdcC₂]
  rw [decodeMbResidual_eq, ← heq]
  have h₃₄ := decode_bind (f := decodeBlocks s m (codedChromaAc cc)) hp₃ hp₄
  have h₂₃₄ := decode_bind (f := fun q st => (decodeChromaDc (codedChromaDc cc) q st).bind fun p =>
    decodeBlocks s m (codedChromaAc cc) p.1 p.2) hp₂ h₃₄
  exact decode_bind (f := fun q st => (decodeBlocks s m (codedLuma cl) q st).bind fun p =>
    (decodeChromaDc (codedChromaDc cc) p.1 p.2).bind fun p => decodeBlocks s m (codedChromaAc cc) p.1 p.2) hp₁ h₂₃₄

end Sys2Proof.Machine
end

section
/-! PROOFS. A macroblock_layer is decoded to the record that was written (30 R112; 45 R352, R360). -/

namespace Sys2Proof.Machine

/-! ### Coded elements -/

theorem itemsBits_ue {v : Nat} {rest : List Item} {bs : List Bool} (h : itemsBits (ueCodeword v :: rest) = some bs) :
    ∃ bs', v ≤ 65534 ∧ itemsBits rest = some bs' ∧ bs = ueBits v ++ bs' := by
  obtain ⟨c, bs', hc, hrest, rfl⟩ := itemsBits_cons_eq_some_iff.mp h
  rcases Nat.lt_or_ge 65534 v with hv | hv
  · rw [ueCodeword_of_gt hv] at hc
    cases hc
  · rw [ueCodeword_of_le hv] at hc
    cases hc
    exact ⟨bs', hv, hrest, by rw [codewordBits_ueBits_length]⟩

theorem ueDecode_of_holds {v : Nat} (hv : v ≤ 65534) {st : Stream} (h : st.Holds (ueBits v)) :
    ueDecode st = .ok (v, st.skip (ueBits v).length) := ueDecode_eq_ok_iff.mpr ⟨hv, h, rfl⟩

theorem toWord_toNat (w : Word) : toWord w.toNat = w := by
  rw [toWord, BitVec.ofInt_natCast, BitVec.ofNat_toNat, BitVec.setWidth_eq]

theorem seUnmap_seMap (v : Int) : seUnmap (seMap v) = v := by
  rw [seMap]
  exact seUnmap_eq (by split <;> omega)

theorem seDecode_of_holds {v : Int} (hv : seMap v ≤ 65534) {st : Stream} (h : st.Holds (ueBits (seMap v))) :
    seDecode st = .ok (v, st.skip (ueBits (seMap v)).length) := by
  change (ueDecode st).bind _ = _
  rw [ueDecode_of_holds hv h, except_ok_bind]
  change Except.ok (seUnmap (seMap v), _) = _
  rw [seUnmap_seMap]

theorem cbpDecode_of_holds {p : Nat} (hp : p ≤ 47) {st : Stream} (h : st.Holds (ueBits (cbpInv false p))) :
    cbpDecode false st = .ok (p, st.skip (ueBits (cbpInv false p)).length) := by
  obtain ⟨hle, hinv⟩ := cbpTab_cbpInv false p hp
  change (ueDecode st).bind _ = _
  rw [ueDecode_of_holds (hle.trans (by decide)) h, except_ok_bind]
  change (require _ _).bind _ = _
  rw [require_bind, if_pos (by simpa using hle)]
  change Except.ok (cbpTab false (cbpInv false p), _) = _
  rw [hinv]

/-! ### mb_qp_delta (45 R329) -/

theorem qpDelta_spec {qp pred : Int} (hqp : 0 ≤ qp ∧ qp ≤ 51) (hpred : 0 ≤ pred ∧ pred ≤ 51) :
    (-26 ≤ qpDelta qp pred ∧ qpDelta qp pred ≤ 25) ∧ (pred + qpDelta qp pred + 52) % 52 = qp := by
  unfold qpDelta
  dsimp only
  split
  · omega
  · split <;> omega

theorem seMap_qpDelta_le {qp pred : Int} (hqp : 0 ≤ qp ∧ qp ≤ 51) (hpred : 0 ≤ pred ∧ pred ≤ 51) :
    seMap (qpDelta qp pred) ≤ 65534 := by
  obtain ⟨hrange, -⟩ := qpDelta_spec hqp hpred
  rw [seMap]
  split <;> omega

theorem decodeQp_of_holds {qp pred : Int} (hqp : 0 ≤ qp ∧ qp ≤ 51) (hpred : 0 ≤ pred ∧ pred ≤ 51) {st : Stream}
    (h : st.Holds (ueBits (seMap (qpDelta qp pred)))) :
    decodeQp pred st = .ok (qp, st.skip (ueBits (seMap (qpDelta qp pred))).length) := by
  obtain ⟨hrange, hback⟩ := qpDelta_spec hqp hpred
  change (seDecode st).bind _ = _
  rw [seDecode_of_holds (seMap_qpDelta_le hqp hpred) h, except_ok_bind]
  change (require _ _).bind _ = _
  rw [require_bind, if_pos (within_eq_true_iff.mpr hrange)]
  change Except.ok ((pred + qpDelta qp pred + 52) % 52, _) = _
  rw [hback]

/-! ### The prediction elements (45 R360) -/

theorem decodeIntraPrediction_of_holds {pm cbp : Int} {q : MbRecord} {cpm : Nat} (hcpm : cpm ≤ 3) {st : Stream}
    (h : st.Holds (ueBits cpm)) :
    decodeIntraPrediction pm cbp q st = .ok (q.withIntra pm cbp cpm, st.skip (ueBits cpm).length) := by
  rw [decodeIntraPrediction, ueDecode_of_holds (hcpm.trans (by decide)) h, except_ok_bind, require_bind,
    if_pos (by simpa using hcpm)]

theorem decodeInterPrediction_of_holds {mv d v : Int × Int} {q : MbRecord} {p : Nat} (hx : seMap d.1 ≤ 65534)
    (hy : seMap d.2 ≤ 65534) (hv : chkPair (mv.1 + d.1) (mv.2 + d.2) = .ok v) (hp : p ≤ 47) {st : Stream}
    (h : st.Holds (ueBits (seMap d.1) ++ (ueBits (seMap d.2) ++ ueBits (cbpInv false p)))) :
    decodeInterPrediction mv q st = .ok (q.withInter d v p,
      st.skip (ueBits (seMap d.1) ++ (ueBits (seMap d.2) ++ ueBits (cbpInv false p))).length) := by
  obtain ⟨h₁, h⟩ := Stream.holds_append.mp h
  obtain ⟨h₂, h₃⟩ := Stream.holds_append.mp h
  rw [decodeInterPrediction, seDecode_of_holds hx h₁, except_ok_bind, seDecode_of_holds hy h₂, except_ok_bind, hv,
    except_ok_bind, cbpDecode_of_holds hp h₃, except_ok_bind, Stream.skip_skip, Stream.skip_skip]
  simp only [List.length_append, Nat.add_comm, Nat.add_left_comm]

/-! ### The record of an encoder (45 R345, R350, R375) -/

/-- Operands of MB_ENCODE in their ranges (45 R375). -/
structure EncodeArgs.Legal (a : EncodeArgs) : Prop where
  slice : a.st = 0 ∨ a.st = 2
  qp : 0 ≤ a.qp ∧ a.qp ≤ 51
  cpm : a.intra = true → 0 ≤ a.cpm ∧ a.cpm ≤ 3
  mvx : inInt32 a.mvx = true
  mvy : inInt32 a.mvy = true
  inter : a.intra = false → a.st = 0

/-- `r` is a record that an encoder forms for the operands `a` before its macroblock_layer is written. -/
structure MbRecord.FormedBy (r : MbRecord) (a : EncodeArgs) : Prop where
  fields : r = { encodeRecord a with
    coefY := r.coefY, dcY := r.dcY, coefC := r.coefC, dcC := r.dcC, cbp := r.cbp, mbType := r.mbType }
  pattern : r.cbp = toWord (codedBlockPattern r)
  type : setType a.st (boolInt a.intra) a.pm (codedBlockPattern r) = .ok r.mbType.toInt
  apart : r.DcApart

theorem eq_zero16_of_vecInt {v : Vec16} (h : ¬ ∃ k < 16, vecInt v k ≠ 0) : v = zero16 := by
  have hzero : ∀ k < 16, vecInt zero16 k = 0 := by decide
  refine vec_ext fun k hk => ?_
  rw [hzero k hk]
  by_contra hne
  exact h ⟨k, hk, hne⟩

theorem eq_zero4_of_vecInt {v : Vec4} (h : ¬ ∃ k < 4, vecInt v k ≠ 0) : v = zero4 := by
  have hzero : ∀ k < 4, vecInt zero4 k = 0 := by decide
  refine vec_ext fun k hk => ?_
  rw [hzero k hk]
  by_contra hne
  exact h ⟨k, hk, hne⟩

/-- The pattern names every block that is not zero (45 R345). -/
theorem MbRecord.codedBy_codedBlockPattern (r : MbRecord) :
    r.CodedBy (codedBlockPattern r % 16) (codedBlockPattern r / 16) := by
  classical
  obtain ⟨-, hluma, hchroma⟩ := codedBlockPattern_parts r
  rw [cbpLuma_eq] at hluma
  rw [cbpChroma_eq] at hchroma
  refine ⟨fun b hb hbit => eq_zero16_of_vecInt fun hne => ?_, fun hcc c hc b hb => eq_zero16_of_vecInt fun hne => ?_,
    fun hcc => ?_⟩
  · rw [hluma, nibble_testBit _ (by omega), Bool.eq_false_iff] at hbit
    exact hbit ((MbRecord.lumaCoded_iff (by omega)).mpr ⟨b, hb, .inr rfl, hne⟩)
  · rw [hchroma, if_pos ⟨c, hc, b, hb, hne⟩] at hcc
    exact hcc rfl
  · have hdcs : ¬ r.ChromaDcs := fun hdcs => by
      rw [hchroma] at hcc
      rw [if_pos hdcs] at hcc
      split at hcc <;> cases hcc
    have hzero (c : Comp) (hc : c ∈ [Comp.cb, .cr]) : r.dcc c = zero4 :=
      eq_zero4_of_vecInt fun hne => hdcs ⟨c, hc, hne⟩
    intro c
    cases c with
    | luma => exact hzero .cb (by decide)
    | cb => exact hzero .cb (by decide)
    | cr => exact hzero .cr (by decide)

/-- A record none of whose blocks is coded is its cleared one. -/
theorem MbRecord.cleared_eq {r : MbRecord} (hcoded : r.CodedBy 0 0) (hapart : r.DcApart) (hinter : r.intra = false) :
    r.cleared = r := by
  obtain ⟨hcoef, hdcY, hdcc⟩ := r.cleared_blocks
  have hnone : codedLuma 0 = [] ∧ codedChromaAc 0 = [] := by decide
  refine MbRecord.eq_of_blocks rfl (fun c b hb => ?_) ?_ fun c => ?_
  · rw [hcoef c b hb, hcoded.zero hb (by simp [hnone.1]) (by simp [hnone.2])]
  · rw [hdcY, hapart.2 hinter]
  · rw [hdcc, hcoded.chromaDc rfl]

theorem MbRecord.WrittenTo.codedBy {r q : MbRecord} (h : r.WrittenTo q) {cl cc : Nat} (hr : r.CodedBy cl cc) :
    q.CodedBy cl cc := by
  refine ⟨fun b hb hbit => ?_, fun hcc c hc b hb => ?_, fun hcc c => ?_⟩
  · rw [h.coef, hr.luma b hb hbit]
  · rw [h.coef, hr.chroma hcc c hc b hb]
  · rw [h.dcc, hr.chromaDc hcc]

section
variable {r : MbRecord} {a : EncodeArgs} (h : r.FormedBy a)
include h

theorem MbRecord.FormedBy.intra : r.intra = a.intra := (congrArg MbRecord.intra h.fields).trans rfl

theorem MbRecord.FormedBy.cbp_toNat : r.cbp.toNat = codedBlockPattern r := by
  rw [h.pattern]
  exact toNat_toWord_codedBlockPattern r

theorem MbRecord.FormedBy.codedBy : r.CodedBy (r.cbp.toNat % 16) (r.cbp.toNat / 16) := by
  rw [h.cbp_toNat]
  exact r.codedBy_codedBlockPattern

theorem MbRecord.FormedBy.cleared : r.cleared = { encodeRecord a with cbp := r.cbp, mbType := r.mbType } :=
  (congrArg MbRecord.cleared h.fields).trans rfl

end

/-! ### The layer -/

section
variable {r : MbRecord} {a : EncodeArgs} (h : r.FormedBy a)
include h

theorem MbRecord.FormedBy.type_spec : (r.mbType.toNat : Int) = r.mbType.toInt ∧
    unpackMbType a.st r.mbType.toNat =
      .ok (if a.intra then (1, a.pm, (codedBlockPattern r : Int)) else (0, 0, -1)) := by
  have htype := h.type
  rw [setType_eq_ok_iff] at htype
  have hnat : 0 ≤ r.mbType.toInt → (r.mbType.toNat : Int) = r.mbType.toInt := fun hpos => by
    have hcond := BitVec.toInt_eq_toNat_cond r.mbType
    have := r.mbType.isLt
    split at hcond <;> omega
  cases hintra : a.intra with
  | false =>
    rw [hintra] at htype
    obtain ⟨hst, -, ht⟩ := htype.resolve_right fun hno => absurd hno.2.1 (by decide)
    have hval := hnat (by omega)
    refine ⟨hval, ?_⟩
    rw [hval, ht, hst]
    rfl
  | true =>
    rw [hintra] at htype
    obtain ⟨hst, -, hpm0, hpm3, hcbp0, hcbp47, hluma, ht⟩ := htype.resolve_left fun hno => absurd hno.2.1 (by decide)
    have hval := hnat (by omega)
    refine ⟨hval, ?_⟩
    rw [hval, ht]
    exact unpackMbType_packed hst hpm0 hpm3 hcbp0 hcbp47 hluma

/-- The elements between mb_type and mb_qp_delta are decoded to the fields that were written (45 R352, R360). -/
theorem decodePrediction_of_holds (s : State) (ha : a.Legal) {d : DecodeArgs} (hm : d.m = a.m) (hslice : d.slice = a.slice)
    (hst : d.st = a.st) {bs : List Bool} {st : Stream} (hbits : itemsBits (predictionItems s a r).1 = some bs)
    (hholds : st.Holds bs) :
    decodePrediction s d a.intra (if a.intra then a.pm else 0) (if a.intra then (codedBlockPattern r : Int) else -1)
      (typedRecord d r.mbType.toNat) st = .ok ((predictionItems s a r).2.cleared, st.skip bs.length) := by
  have hcbp : toWord (codedBlockPattern r) = r.cbp := h.pattern.symm
  have hle := (codedBlockPattern_parts r).1
  rw [decodePrediction_eq, hm, hslice]
  unfold predictionItems at hbits ⊢
  cases hintra : a.intra with
  | true =>
    have hcpm : r.cpm = toWord a.cpm := (congrArg MbRecord.cpm h.fields).trans (by simp [encodeRecord, hintra])
    have hcpm3 : r.cpm.toNat ≤ 3 := by
      obtain ⟨h0, h3⟩ := ha.cpm hintra
      rw [hcpm, ← Int.toNat_of_nonneg h0, toNat_toWord_of_lt (by omega)]
      omega
    rw [hintra, if_pos rfl] at hbits
    obtain ⟨bs', -, hnil, rfl⟩ := itemsBits_ue hbits
    cases hnil
    rw [List.append_nil] at hholds ⊢
    simp only [if_true]
    rw [decodeIntraPrediction_of_holds hcpm3 hholds, h.cleared, ← hcbp]
    simp only [MbRecord.withIntra, typedRecord, decodeRecord, encodeRecord, hintra, hst, hslice, toWord_toNat, hcpm,
      if_true]
    rfl
  | false =>
    rw [hintra, if_neg Bool.false_ne_true] at hbits
    simp only [Bool.false_eq_true, if_false] at hbits ⊢
    cases hx : chk (a.mvx - (s.mvp a.m a.slice).1) with
    | error e =>
      simp only [hx] at hbits
      cases hbits
    | ok dx =>
      cases hy : chk (a.mvy - (s.mvp a.m a.slice).2) with
      | error e =>
        simp only [hx, hy] at hbits
        cases hbits
      | ok dy =>
        simp only [hx, hy] at hbits ⊢
        have hdx := (chk_eq_ok_iff.mp hx).2
        have hdy := (chk_eq_ok_iff.mp hy).2
        have hv : chkPair ((s.mvp a.m a.slice).1 + dx) ((s.mvp a.m a.slice).2 + dy) = .ok (a.mvx, a.mvy) := by
          rw [hdx, hdy, show ∀ x y : Int, x + (y - x) = y by omega, show ∀ x y : Int, x + (y - x) = y by omega, chkPair,
            chk_eq_ok_iff.mpr ⟨ha.mvx, rfl⟩, except_ok_bind, chk_eq_ok_iff.mpr ⟨ha.mvy, rfl⟩, except_ok_bind]
        have hpattern : r.cbp.toInt = codedBlockPattern r := by
          rw [h.pattern]
          exact toInt_toWord_of_le (hle.trans (by decide))
        rw [hpattern, cbpCodeword_of_within hle] at hbits
        obtain ⟨_, hsx, hbitsY, rfl⟩ := itemsBits_ue hbits
        obtain ⟨_, hsy, hbitsP, rfl⟩ := itemsBits_ue hbitsY
        obtain ⟨_, -, hnil, rfl⟩ := itemsBits_ue hbitsP
        cases hnil
        rw [List.append_nil] at hholds ⊢
        have hcleared : MbRecord.cleared { r with mvdx := toWord dx, mvdy := toWord dy } =
            { r.cleared with mvdx := toWord dx, mvdy := toWord dy } := rfl
        rw [decodeInterPrediction_of_holds (d := (dx, dy)) hsx hsy hv hle hholds, hcleared, h.cleared, ← hcbp]
        simp only [MbRecord.withInter, typedRecord, decodeRecord, encodeRecord, hintra, hst, hslice, toWord_toNat,
          Bool.false_eq_true, if_false]
        rfl

end

end Sys2Proof.Machine
end

section
/-! PROOFS. A stream that holds a macroblock_layer is decoded to its record (30 R112; 45 R360). -/

namespace Sys2Proof.Machine

theorem word_ne_zero_iff {w : Word} : w ≠ 0 ↔ w.toNat ≠ 0 := by
  rw [ne_eq, ne_eq, ← BitVec.toNat_inj]
  rfl

theorem MbRecord.WrittenTo.cbp {r q : MbRecord} (h : r.WrittenTo q) : q.cbp = r.cbp := (congrArg MbRecord.cbp h).trans rfl

/-- What follows the prediction elements of a record: mb_qp_delta and the residual, or nothing (45 R352). -/
def layerTail (s : State) (a : EncodeArgs) (q : MbRecord) : List Item × MbRecord :=
  if q.intra || q.cbp ≠ 0 then
    (seCodeword (qpDelta a.qp (s.qpPred a.m a.slice a.sliceQp)) ::
      (residualItems s a.m (q.cbp.toNat % 16) (q.cbp.toNat / 16) { q with qp := toWord a.qp }).1,
      (residualItems s a.m (q.cbp.toNat % 16) (q.cbp.toNat / 16) { q with qp := toWord a.qp }).2)
  else ([], { q with qp := toWord (s.qpPred a.m a.slice a.sliceQp) })

theorem layerItems_eq {r : MbRecord} {a : EncodeArgs} (h : r.intra = a.intra) (s : State) : layerItems s a r =
    (ueCodeword r.mbType.toNat :: ((predictionItems s a r).1 ++ (layerTail s a (predictionItems s a r).2).1),
      (layerTail s a (predictionItems s a r).2).2) := by
  have hwritten := predictionItems_writtenTo s a r
  have hcond : ((predictionItems s a r).2.intra || decide ((predictionItems s a r).2.cbp ≠ 0)) =
      (a.intra || decide (r.cbp.toNat ≠ 0)) := by
    simp only [hwritten.intra, hwritten.cbp, h, word_ne_zero_iff]
  have hlayer : layerItems s a r = if a.intra || r.cbp.toNat ≠ 0 then
      (ueCodeword r.mbType.toNat :: (predictionItems s a r).1 ++ [seCodeword (qpDelta a.qp (s.qpPred a.m a.slice a.sliceQp))]
        ++ (residualItems s a.m (r.cbp.toNat % 16) (r.cbp.toNat / 16)
          { (predictionItems s a r).2 with qp := toWord a.qp }).1,
        (residualItems s a.m (r.cbp.toNat % 16) (r.cbp.toNat / 16)
          { (predictionItems s a r).2 with qp := toWord a.qp }).2)
      else (ueCodeword r.mbType.toNat :: (predictionItems s a r).1,
        { (predictionItems s a r).2 with qp := toWord (s.qpPred a.m a.slice a.sliceQp) }) := rfl
  rw [hlayer, layerTail, hcond, ← hwritten.cbp]
  split
  · simp only [List.cons_append, List.append_assoc, List.nil_append]
  · simp only [List.append_nil]

section
variable {s : State} {a : EncodeArgs} (ha : a.Legal)
  (hpred : 0 ≤ s.qpPred a.m a.slice a.sliceQp ∧ s.qpPred a.m a.slice a.sliceQp ≤ 51)
include ha hpred

/-- A record whose prediction fields have been decoded, with what follows them. -/
theorem decodeTail_of_holds {q : MbRecord} (hapart : q.DcApart)
    (hcoded : q.CodedBy (q.cbp.toNat % 16) (q.cbp.toNat / 16)) {d : DecodeArgs} (hm : d.m = a.m)
    (hslice : d.slice = a.slice) (hqp : d.sliceQp = a.sliceQp) {bs : List Bool} {st : Stream}
    (hbits : itemsBits (layerTail s a q).1 = some bs) (hst : st.Holds bs) :
    decodeTail s d q.cleared st = .ok ((layerTail s a q).2, st.skip bs.length) := by
  have hq : q.cleared.intra = q.intra ∧ q.cleared.cbp = q.cbp := ⟨rfl, rfl⟩
  unfold layerTail at hbits ⊢
  unfold decodeTail
  rw [hq.1, hq.2, hm, hslice, hqp]
  by_cases hcond : (q.intra || decide (q.cbp ≠ 0)) = true
  · rw [if_pos hcond] at hbits
    rw [if_pos hcond, if_pos hcond]
    obtain ⟨_, -, hres, rfl⟩ := itemsBits_ue hbits
    obtain ⟨hst₁, hst₂⟩ := Stream.holds_append.mp hst
    have hresidual := decodeMbResidual_of_holds s a.m (q.cbp.toNat % 16) (q.cbp.toNat / 16)
      (r := { q with qp := toWord a.qp }) hapart ⟨hcoded.luma, hcoded.chroma, hcoded.chromaDc⟩ hres hst₂
    exact decode_bind (f := fun qp st => decodeMbResidual s a.m (q.cbp.toNat % 16) (q.cbp.toNat / 16)
      { q.cleared with qp := toWord qp } st) (decodeQp_of_holds ha.qp hpred hst₁) hresidual
  · rw [if_neg hcond] at hbits
    cases hbits
    rw [if_neg hcond, if_neg hcond]
    simp only [Bool.or_eq_true, decide_eq_true_eq, not_or, not_not, Bool.not_eq_true] at hcond
    obtain ⟨hinter, hzero⟩ := hcond
    rw [hzero] at hcoded
    rw [MbRecord.cleared_eq hcoded hapart hinter]
    rfl

/-- A stream that holds the macroblock_layer of a record is decoded to that record (30 R112, R113). -/
theorem decodeLayer_of_holds {r : MbRecord} (h : r.FormedBy a) {d : DecodeArgs} (hm : d.m = a.m)
    (hslice : d.slice = a.slice) (hstype : d.st = a.st) (hqp : d.sliceQp = a.sliceQp) {bs : List Bool}
    (hbits : itemsBits (layerItems s a r).1 = some bs) {st : Stream} (hst : st.Holds bs) :
    decodeLayer s d st = .ok ((layerItems s a r).2, st.skip bs.length) := by
  have hwritten := predictionItems_writtenTo s a r
  rw [layerItems_eq h.intra] at hbits ⊢
  obtain ⟨_, htype, hrest, rfl⟩ := itemsBits_ue hbits
  obtain ⟨bp, bt, hbp, hbt, rfl⟩ := itemsBits_append_eq_some_iff.mp hrest
  obtain ⟨hst₁, hst⟩ := Stream.holds_append.mp hst
  obtain ⟨hst₂, hst₃⟩ := Stream.holds_append.mp hst
  have hcoded : (predictionItems s a r).2.CodedBy ((predictionItems s a r).2.cbp.toNat % 16)
      ((predictionItems s a r).2.cbp.toNat / 16) := by
    rw [hwritten.cbp]
    exact hwritten.codedBy h.codedBy
  have htail := decodeTail_of_holds ha hpred (hwritten.dcApart h.apart) hcoded hm hslice hqp hbt hst₃
  have hprediction := decodePrediction_of_holds h s ha hm hslice hstype hbp hst₂
  have hunpack := h.type_spec.2
  rw [decodeLayer_eq]
  refine decode_bind (f := fun (t : Nat) st => (unpackMbType d.st t).bind fun u => (decodePrediction s d (decide (u.1 = 1)) u.2.1
    u.2.2 (typedRecord d t) st).bind fun q => decodeTail s d q.1 q.2) (ueDecode_of_holds htype hst₁) ?_
  dsimp only
  rw [hstype, hunpack, except_ok_bind]
  refine decode_bind (f := decodeTail s d) ?_ htail
  rw [← hprediction]
  cases a.intra <;> rfl

end

end Sys2Proof.Machine
end

section
/-! PROOFS. MB_DECODE on a stream that holds a macroblock_layer (45 R360, R361, R376). -/

namespace Sys2Proof.Machine

/-! ### The reconstruction of bounded coefficients completes (45 R361) -/

theorem Mat.ofVec_bounded {v : Vec16} {B : Nat} (h : ∀ k < 16, (vecInt v k).natAbs ≤ B) : (Mat.ofVec v).Bounded B :=
  Mat.ofFn_bounded fun k hk => by
    have := h k hk
    omega

/-- The bound of the luma DC values that coefficients up to 7000 give (44 R278). -/
def dcBound : Int := 129024032

theorem reconBlock_ok {z : Vec16} (hz : ∀ k < 16, (vecInt z k).natAbs ≤ 7000) {qp : Nat} (hqp : qp ≤ 51) {dc : Option Int}
    (hdc : ∀ v ∈ dc, -dcBound ≤ v ∧ v ≤ dcBound) : ∃ b, reconBlock z qp dc = .ok b := by
  obtain ⟨d, hd, hdB⟩ := dequant_ok (Mat.ofVec_bounded hz) (by decide) hqp
  have hd' : d.Bounded dcBound := hdB.mono (by decide)
  change ∃ b, (dequant _ _).bind _ = _
  rw [hd, except_ok_bind]
  cases dc with
  | none => exact coreInv_ok (by decide) hd'
  | some v => exact coreInv_ok (by decide) (Mat.setDc_bounded (fun i j _ => hd' i j) (hdc v rfl))

theorem reconLuma_ok {r : MbRecord} (h : r.Within 7000) {qp : Nat} (hqp : qp ≤ 51) : ∃ bs, reconLuma r qp = .ok bs := by
  obtain ⟨hcoef, hdcY, -⟩ := h
  unfold reconLuma
  split
  · obtain ⟨d, hd, hdB⟩ := dcInv4_ok (by decide) (Mat.ofVec_bounded hdcY) hqp
    change ∃ bs, (dcInv4 _ _).bind _ = _
    rw [hd, except_ok_bind]
    refine mapErr_ok fun b hb => reconBlock_ok (hcoef .luma b (List.mem_range.mp hb)) hqp fun v hv => ?_
    obtain ⟨hy, hx⟩ := lumaBy_lumaBx_lt b (List.mem_range.mp hb)
    cases hv
    rw [Mat.toList_getD _ hy hx]
    exact hdB _ _
  · exact mapErr_ok fun b hb => reconBlock_ok (hcoef .luma b (List.mem_range.mp hb)) hqp nofun

theorem reconChroma_ok {r : MbRecord} (h : r.Within 7000) {c : Comp} (hc : c ≠ .luma) {qpc : Nat} (hqpc : qpc ≤ 51) :
    ∃ bs, reconChroma r c qpc = .ok bs := by
  obtain ⟨hcoef, -, hdcc⟩ := h
  have hdc (k : Nat) (hk : k < 4) : -(7000 : Int) ≤ vecInt (r.dcc c) k ∧ vecInt (r.dcc c) k ≤ 7000 := by
    have := hdcc c k hk
    omega
  obtain ⟨d, hd, hdB⟩ := dcInv2_ok (B := 7000) (by decide)
    (Quad.bounded_mk (hdc 0 (by decide)) (hdc 1 (by decide)) (hdc 2 (by decide)) (hdc 3 (by decide))) hqpc
  change ∃ bs, (dcInv2 _ _).bind _ = _
  rw [hd, except_ok_bind]
  refine mapErr_ok fun b hb => ?_
  have hb4 := List.mem_range.mp hb
  refine reconBlock_ok (hcoef c b ?_) hqpc fun v hv => ?_
  · cases c with
    | luma => exact absurd rfl hc
    | cb | cr => exact hb4
  · cases hv
    rw [Quad.toList_getD _ hb4]
    have := hdB b
    unfold dcBound
    omega

theorem reconstruct_ok {cfg : Config} {r : MbRecord} (h : r.Within 7000) (hqp : r.qp.toNat ≤ 51) :
    ∃ p, reconstruct cfg r = .ok p := by
  obtain ⟨y, hy⟩ := reconLuma_ok h hqp
  obtain ⟨cb, hcb⟩ := reconChroma_ok h (c := .cb) (by decide) (qpcSpec_le cfg r.qp.toInt)
  obtain ⟨cr, hcr⟩ := reconChroma_ok h (c := .cr) (by decide) (qpcSpec_le cfg r.qp.toInt)
  refine ⟨(y, cb, cr), ?_⟩
  simp only [reconstruct, qpChroma_eq_qpcSpec, hy, hcb, hcr, bind, except_ok_bind]
  rfl

theorem MbRecord.WrittenTo.within {r q : MbRecord} (h : r.WrittenTo q) {B : Nat} (hr : r.Within B) : q.Within B := by
  obtain ⟨hcoef, hdcY, hdcc⟩ := hr
  refine ⟨fun c b hb k hk => ?_, fun k hk => ?_, fun c k hk => ?_⟩
  · rw [h.coef]
    exact hcoef c b hb k hk
  · rw [h.dcY]
    exact hdcY k hk
  · rw [h.dcc]
    exact hdcc c k hk

/-! ### The QP of a record (45 R328, R329) -/

theorem State.record_mem_of_done {s : State} {n : Nat} (h : (s.record n).done = true) : s.record n ∈ s.mbs := by
  unfold State.record at h ⊢
  by_cases hlt : n < s.mbs.length
  · rw [List.getD_eq_getElem _ _ hlt]
    exact List.getElem_mem hlt
  · rw [List.getD_eq_default _ _ (by omega)] at h
    cases h

/-- The predicted QP of a macroblock that is coded in order is a QP. -/
theorem State.qpPred_bounds {s : State} (hrecords : s.RecordsOk) (horder : s.InOrder s.mArg) (slice : Word) {qp : Int}
    (hqp : 0 ≤ qp ∧ qp ≤ 51) : 0 ≤ s.qpPred s.mArg slice qp ∧ s.qpPred s.mArg slice qp ≤ 51 := by
  unfold State.qpPred
  split
  · next hprev =>
    have hdone := horder.2.2 hprev.1
    have hle := (hrecords _ (State.record_mem_of_done hdone) hdone).2.2.1
    have hval := BitVec.toInt_eq_toNat_of_lt (x := (s.record (s.mArg - 1)).qp) (by omega)
    omega
  · exact hqp

/-! ### MB_DECODE -/

theorem State.mbCommand_of_ok {α : Type} (s : State) (ws : α → WriteSet) {check : Except Err α}
    {body : α → Except Err State} {a : α} {t : State} (hcheck : check = .ok a) (hbody : body a = .ok t) :
    s.mbCommand ws check body = t.succeed := by
  subst hcheck
  simp only [State.mbCommand, State.command, hbody]

/-- The state that MB_DECODE leaves when it has read `n` bits and formed the record `r`. -/
def State.decoded (s : State) (r : MbRecord) (n : Nat) (p : List Mat × List Mat × List Mat) : State :=
  ((((s.setStream (s.stream.skip n)).writeViews s.mArg p).setRecord s.mArg r.coded).setResList 0
    (mbResults n r.coded)).succeed

theorem exec_mbDecode_of_layer {s : State} (hready : s.DecodeReady) {r : MbRecord} {n : Nat}
    (hlayer : decodeLayer s s.decodeArgs s.stream = .ok (r, s.stream.skip n)) {p : List Mat × List Mat × List Mat}
    (hp : reconstruct s.cfg r = .ok p) : exec .mbDecode s = .next (s.decoded r n p) := by
  have hcheck : decodeCheck s = .ok s.decodeArgs := decodeCheck_eq_ok_iff.mpr ⟨hready, rfl⟩
  have hbody := decodeBody_eq s s.decodeArgs
  rw [hlayer, except_ok_bind] at hbody
  dsimp only at hbody
  rw [hp, except_ok_bind, show (s.stream.skip n).pos - s.stream.pos = n from Nat.add_sub_cancel_left ..] at hbody
  rw [exec_mbDecode, s.mbCommand_of_ok _ hcheck hbody]
  rfl

theorem mbResults_eq (n : Nat) (r : MbRecord) : mbResults n r.coded = (n : Int) :: r.report := rfl

/-! ### A state with a record and its results (45 R375, R376) -/

section
variable (t : State) (m : Nat) (r : MbRecord) (rs : List Int)

/-- A completed command with a record and its results. -/
def State.finished : State := ((t.setRecord m r).setResList 0 rs).succeed

theorem State.finished_eq : t.finished m r rs =
    { t with mbs := t.mbs.set m r, res := (t.finished m r rs).res, status := 0 } := by
  rw [State.finished, State.succeed_eq, State.setResList_eq]
  rfl

theorem State.finished_results {s : State} (h : t.res = s.res) : s.Results (t.finished m r rs) rs :=
  State.results_setResList rs fun i => by rw [State.getRes, State.getRes, ← h]; rfl

end

section
variable {s : State} {r : MbRecord} {n : Nat} {p : List Mat × List Mat × List Mat}

theorem State.decoded_eq : s.decoded r n p =
    ((s.setStream (s.stream.skip n)).writeViews s.mArg p).finished s.mArg r.coded (mbResults n r.coded) := by
  rw [State.decoded, State.finished]

theorem State.decoded_status : (s.decoded r n p).status = 0 := by rw [State.decoded_eq, State.finished_eq]

theorem State.decoded_errAcc : (s.decoded r n p).errAcc = s.errAcc := by
  rw [State.decoded_eq, State.finished_eq]
  dsimp only
  rw [State.writeViews_errAcc]
  rfl

theorem State.decoded_bsPos (hroom : s.Room n) : (s.decoded r n p).bsPos.toNat = s.bsPos.toNat + n := by
  rw [State.decoded_eq, State.finished_eq]
  dsimp only
  rw [State.writeViews_bsPos]
  exact hroom.toNat_ofNat

theorem State.decoded_bsbuf : (s.decoded r n p).bsbuf = s.bsbuf := by
  rw [State.decoded_eq, State.finished_eq]
  dsimp only
  rw [State.writeViews_bsbuf]
  rfl

theorem State.decoded_mbs : (s.decoded r n p).mbs = s.mbs.set s.mArg r.coded := by
  rw [State.decoded_eq, State.finished_eq]
  dsimp only
  rw [State.writeViews_mbs]
  rfl

theorem State.decoded_results : s.Results (s.decoded r n p) (mbResults n r.coded) := by
  rw [State.decoded_eq]
  exact State.finished_results _ _ _ _ (State.writeViews_res ..)

end

end Sys2Proof.Machine
end

section
/-! PROOFS. MB_DECODE gives back the macroblock that a stream holds (45 R360, R376), and so what MB_ENCODE wrote. -/

namespace Sys2Proof.Machine

/-! ### The record of a macroblock_layer -/

theorem residualItems_sameBlocks (s : State) (m cl cc : Nat) (r : MbRecord) :
    r.SameBlocks (residualItems s m cl cc r).2 :=
  (blockItems_sameBlocks s m (codedLuma cl) r).trans (blockItems_sameBlocks s m (codedChromaAc cc) _)

theorem layerTail_qp (s : State) (a : EncodeArgs) (q : MbRecord) : (layerTail s a q).2.qp =
    if q.intra || q.cbp ≠ 0 then toWord a.qp else toWord (s.qpPred a.m a.slice a.sliceQp) := by
  unfold layerTail
  split
  · exact (congrArg MbRecord.qp (residualItems_sameBlocks s a.m _ _ { q with qp := toWord a.qp })).trans rfl
  · rfl

theorem toNat_toWord_le {v : Int} {n : Nat} (h : 0 ≤ v ∧ v ≤ n) (hn : n < 4294967296) : (toWord v).toNat ≤ n := by
  obtain ⟨h0, hle⟩ := h
  rw [← Int.toNat_of_nonneg h0, toNat_toWord_of_lt (by omega)]
  omega

section
variable {s : State} {a : EncodeArgs} (ha : a.Legal)
  (hpred : 0 ≤ s.qpPred a.m a.slice a.sliceQp ∧ s.qpPred a.m a.slice a.sliceQp ≤ 51)
include ha hpred

theorem layerItems_qp_le {r : MbRecord} (h : r.intra = a.intra) : (layerItems s a r).2.qp.toNat ≤ 51 := by
  rw [layerItems_eq h, layerTail_qp]
  split
  · exact toNat_toWord_le ha.qp (by decide)
  · exact toNat_toWord_le hpred (by decide)

/-- MB_DECODE of a stream that holds the macroblock_layer of a record leaves that record (45 R376). -/
theorem exec_mbDecode_of_holds (hready : s.DecodeReady) {r : MbRecord} (h : r.FormedBy a) (hwithin : r.Within 7000)
    (hm : s.mArg = a.m) (hslice : s.getArg 1 = a.slice) (hstype : s.argInt 2 = a.st) (hqp : s.argInt 9 = a.sliceQp)
    {bs : List Bool} (hbits : itemsBits (layerItems s a r).1 = some bs) (hst : s.Holds bs) :
    ∃ p, exec .mbDecode s = .next (s.decoded (layerItems s a r).2 bs.length p) := by
  have hlayer := decodeLayer_of_holds ha hpred h (d := s.decodeArgs) hm hslice hstype hqp hbits
    (State.holds_iff_stream.mp hst)
  obtain ⟨p, hp⟩ := reconstruct_ok (cfg := s.cfg) ((layerItems_writtenTo s a r).within hwithin)
    (layerItems_qp_le ha hpred h.intra)
  exact ⟨p, exec_mbDecode_of_layer hready hlayer hp⟩

end

theorem MbRecord.Within.mono {r : MbRecord} {B C : Nat} (h : r.Within B) (hBC : B ≤ C) : r.Within C :=
  ⟨fun c b hb k hk => (h.1 c b hb k hk).trans hBC, fun k hk => (h.2.1 k hk).trans hBC,
    fun c k hk => (h.2.2 c k hk).trans hBC⟩

theorem MbRecord.Codable.dcApart {r : MbRecord} (h : r.Codable) : r.DcApart := by
  obtain ⟨-, -, -, hluma, hchroma, hdcY⟩ := h
  refine ⟨fun c hc b hb => ?_, hdcY⟩
  cases c with
  | luma => exact hluma hc b hb
  | cb => exact (hchroma b hb).1
  | cr => exact (hchroma b hb).2

theorem MbRecord.Codable.within {r : MbRecord} (h : r.Codable) : r.Within 7000 := by
  obtain ⟨hcoef, hdcY, hdcc, -⟩ := h
  exact MbRecord.Within.mono ⟨hcoef, hdcY, hdcc⟩ (by decide)

/-- Settles O51, by the decoding of each element of the macroblock_layer in turn. -/
theorem mbDecodeReads : Obligations.MbDecodeReads := by
  intro s a r bs hinv hready hm hslice hstype hsliceQp hqp0 hqp51 hpm0 hpm3 hcpm0 hcpm3 hmvx hmvy hinter hfields hcodable
    hpattern htype hbits hst
  have ha : a.Legal := ⟨by rw [hstype]; exact hready.2.1, ⟨hqp0, hqp51⟩, fun _ => ⟨hcpm0, hcpm3⟩, hmvx, hmvy,
    fun hno => hinter.resolve_left (by rw [hno]; decide)⟩
  have hformed : r.FormedBy a := by
    obtain ⟨cy, dy, cc, dc, hr⟩ := hfields
    refine ⟨?_, hpattern, htype, hcodable.dcApart⟩
    conv_lhs => rw [hr]
    rw [hr]
  have hpred : 0 ≤ s.qpPred a.m a.slice a.sliceQp ∧ s.qpPred a.m a.slice a.sliceQp ≤ 51 := by
    rw [hm, hsliceQp]
    exact State.qpPred_bounds hinv.records hready.2.2.2 a.slice hready.2.2.1
  obtain ⟨p, hexec⟩ := exec_mbDecode_of_holds ha hpred hready hformed hcodable.within hm.symm hslice.symm hstype.symm
    hsliceQp.symm hbits hst
  refine ⟨_, hexec, State.decoded_status, State.decoded_errAcc, State.decoded_bsPos hst.1, ?_, ?_⟩
  · rw [State.record, State.decoded_mbs]
    have hlt := (hready.1.bounds hinv.grid hinv.store).1
    simp [hlt]
    rfl
  · rw [← mbResults_eq]
    exact State.decoded_results

end Sys2Proof.Machine
end

section
/-! PROOFS. MB_DECODE of what MB_ENCODE wrote (45 R375 to R377). -/

namespace Sys2Proof.Machine

/-! ### The operands and the record of MB_ENCODE -/

theorem inInt32_argInt (s : State) (i : Nat) : inInt32 (s.argInt i) = true := inInt32_vecInt s.arg i

theorem State.EncodeReady.legal {s : State} (h : s.EncodeReady) : s.encodeArgs.Legal := by
  obtain ⟨-, hslice, ⟨⟨-, -, hqp0, hqp51⟩, hmode⟩, -⟩ := h
  refine ⟨hslice, ⟨hqp0, hqp51⟩, fun hintra => ?_, inInt32_argInt s 7, inInt32_argInt s 8, fun hinter => ?_⟩
  · obtain ⟨-, -, -, hcpm⟩ := hmode.resolve_right fun hno => by
      have := of_decide_eq_true hintra
      omega
    exact hcpm
  · exact (hmode.resolve_left fun hno => of_decide_eq_false hinter hno.1).2

theorem State.EncodeReady.decodeReady {s : State} (h : s.EncodeReady) : s.DecodeReady :=
  ⟨h.1, h.2.1, ⟨h.2.2.1.1.1, h.2.2.1.1.2.1⟩, h.2.2.2⟩

/-- A record that MB_ENCODE has formed is one that an encoder forms, and its coefficients are bounded. -/
theorem State.Forms.formedBy {s : State} {r : MbRecord} (h : s.Forms r) : r.FormedBy s.encodeArgs := by
  obtain ⟨r₁, t, htrans, htype, rfl⟩ := h
  obtain ⟨⟨w, hw⟩, hfields⟩ := encodeTransform_eq_ok htrans
  have hintra : r₁.intra = s.encodeArgs.intra := (congrArg MbRecord.intra hfields).trans rfl
  refine ⟨?_, rfl, ?_, hw.dcApart hintra⟩
  · exact congrArg (fun q : MbRecord => { q with cbp := toWord (codedBlockPattern r₁), mbType := toWord t }) hfields
  · exact htype.trans (congrArg _ (toInt_toWord (inInt32_of_setType htype)).symm)

theorem State.Forms.within {s : State} {r : MbRecord} (h : s.Forms r) (hsmall : s.SmallSamples s.mArg)
    (hqp : s.argInt 3 ≤ 51) : r.Within 7000 := by
  obtain ⟨r₁, t, htrans, -, rfl⟩ := h
  obtain ⟨⟨w, hw⟩, -⟩ := encodeTransform_eq_ok htrans
  exact hw.within hsmall hqp

theorem State.encoded_eq (s : State) (r : MbRecord) (bs : List Bool) : s.encoded r bs =
    (s.advance bs.length).finished s.mArg (layerItems s s.encodeArgs r).2.coded
      (mbResults bs.length (layerItems s s.encodeArgs r).2.coded) := by
  rw [State.encoded, State.finished]

section
variable {s : State} {r : MbRecord} {bs : List Bool}

theorem State.encoded_mbs : (s.leaves (s.encoded r bs) bs).mbs =
    s.mbs.set s.mArg (layerItems s s.encodeArgs r).2.coded := by
  rw [State.encoded_eq, State.finished_eq]
  rfl

theorem State.encoded_bsPos (hroom : s.Room bs.length) :
    (s.leaves (s.encoded r bs) bs).bsPos.toNat = s.bsPos.toNat + bs.length := by
  rw [State.encoded_eq, State.finished_eq]
  exact hroom.toNat_ofNat

theorem State.Results.leaves {u : State} {rs : List Int} (h : s.Results u rs) (bs : List Bool) :
    s.Results (s.leaves u bs) rs := h

theorem State.encoded_results : s.Results (s.leaves (s.encoded r bs) bs)
    (mbResults bs.length (layerItems s s.encodeArgs r).2.coded) := by
  rw [State.encoded_eq]
  exact State.Results.leaves (State.finished_results (s.advance bs.length) _ _ _ rfl) bs

end

/-- What is written at BS_POS can be read there. -/
theorem State.holds_put {s : State} {bs : List Bool} (h : s.Room bs.length) :
    (s.rebuf (s.stream.put bs).buf).Holds bs := by
  have hbits := (Stream.put_holds (st := s.stream) h).2
  have hsame := Stream.bits_congr (st := { s.stream.put bs with pos := s.stream.pos })
    (st' := (s.rebuf (s.stream.put bs).buf).stream) rfl (Stream.put_base s.stream bs).symm s.bsPos.toNat bs.length
  exact ⟨h, hsame.trans hbits⟩

/-- Settles O54: MB_DECODE reads the macroblock_layer of the record that MB_ENCODE formed. -/
theorem mbRoundTrip : Obligations.MbRoundTrip := by
  intro s t hinv hsmall hexec hstatus
  obtain ⟨r, bs, hready, hforms, hbits, hroom, rfl⟩ := exec_mbEncode_completed hexec hstatus
  obtain ⟨b, hb⟩ : ∃ b, b = (s.leaves (s.encoded r bs) bs).bsbuf := ⟨_, rfl⟩
  have hsame := s.sameMbs_rebuf b
  have hready' : (s.rebuf b).DecodeReady := hready.decodeReady
  have hpred := State.qpPred_bounds hinv.records hready.2.2.2 (s.getArg 1) hready.decodeReady.2.2.1
  have hholds : (s.rebuf b).Holds bs := by
    rw [hb]
    exact s.holds_put hroom
  have hlayer := hsame.layerItems s.encodeArgs r
  obtain ⟨p, hdec⟩ := exec_mbDecode_of_holds (s := s.rebuf b) (a := s.encodeArgs) hready.legal
    (by rw [hsame.qpPred]; exact hpred) hready' hforms.formedBy (hforms.within hsmall hready.legal.qp.2) rfl rfl rfl rfl
    (by rw [hlayer]; exact hbits) hholds
  rw [hlayer] at hdec
  rw [← hb]
  refine ⟨_, hdec, State.decoded_status, ?_, State.decoded_bsbuf, ?_, ?_⟩
  · refine BitVec.eq_of_toNat_eq ?_
    rw [State.decoded_bsPos hholds.1, State.encoded_bsPos hroom]
    rfl
  · refine State.res_ext fun i hi => ?_
    rw [State.decoded_results i hi, State.encoded_results i hi]
    rfl
  · rw [State.decoded_mbs, State.encoded_mbs]
    rfl

end Sys2Proof.Machine
end

section
/-! PROOFS. The writes of a macroblock_layer hold no raise (45 R352), and their bits are bounded (30 R112). -/

namespace Sys2Proof.Machine

/-! ### nC is never negative (45 R326) -/

theorem vecInt_nonneg {n B : Nat} (hB : B ≤ 2147483647) {v : Vector Word n} (h : ∀ k < n, (v.getD k 0).toNat ≤ B) (k : Nat) :
    0 ≤ vecInt v k := by
  rcases Nat.lt_or_ge k n with hk | hk
  · have hle := h k hk
    rw [vecInt, BitVec.toInt_eq_toNat_of_lt (by omega)]
    exact Int.natCast_nonneg _
  · have hdefault : v.getD k 0 = 0 := by simp [Vector.getD, Nat.not_lt.mpr hk]
    rw [vecInt, hdefault]
    decide

/-- No count of the record is negative. -/
def MbRecord.CountsOk (r : MbRecord) : Prop := ∀ c b, 0 ≤ r.tc c b

theorem MbRecord.Legal.countsOk {r : MbRecord} (h : r.Legal) : r.CountsOk := by
  obtain ⟨-, -, -, -, -, -, -, -, htcy, htcc⟩ := h
  intro c b
  cases c with
  | luma => exact vecInt_nonneg (by decide) htcy b
  | cb => exact vecInt_nonneg (by decide) (htcc 0 (by decide)) b
  | cr => exact vecInt_nonneg (by decide) (htcc 1 (by decide)) b

theorem MbRecord.CountsOk.setTc {r : MbRecord} (h : r.CountsOk) {c : Comp} {b n : Nat} (hb : b < c.across * c.across)
    (hn : n ≤ 2147483647) : (r.setTc c b n).CountsOk := by
  intro c' b'
  rw [MbRecord.tc_setTc r hb hn]
  split
  · exact Int.natCast_nonneg n
  · exact h c' b'

theorem MbRecord.countsOk_of_fresh {r : MbRecord} (hy : r.tcy = MbRecord.fresh.tcy) (hc : r.tcc = MbRecord.fresh.tcc) :
    r.CountsOk := by
  have hzero : ∀ k < 16, ((MbRecord.fresh.tcy).getD k 0).toNat ≤ 0 := by decide
  have hzero' : ∀ c < 2, ∀ k < 4, (((MbRecord.fresh.tcc).getD c (Vector.replicate 4 0)).getD k 0).toNat ≤ 0 := by decide
  rw [← hy] at hzero
  rw [← hc] at hzero'
  intro c b
  cases c with
  | luma => exact vecInt_nonneg (by decide) hzero b
  | cb => exact vecInt_nonneg (by decide) (hzero' 0 (by decide)) b
  | cr => exact vecInt_nonneg (by decide) (hzero' 1 (by decide)) b

/-- The counts of the neighbours of macroblock `m` are not negative. -/
def State.NbrCountsOk (s : State) (m : Nat) : Prop := ∀ slice x q, s.availNbr m slice x = some q → q.CountsOk

theorem State.nbrCountsOk {s : State} (hrecords : s.RecordsOk) {m : Nat} (hm : m < s.gridW.toNat * s.gridH.toNat)
    (hdone : s.NeighboursDone m) : s.NbrCountsOk m := by
  have hall := List.all_eq_true.mp ((State.nbrsDone_eq_true_iff hm).mpr hdone)
  intro slice x q hq
  have hx := hall x (by cases x <;> decide)
  unfold State.availNbr at hq
  cases hn : s.nbr m x with
  | none =>
    rw [hn] at hq
    cases hq
  | some n =>
    simp only [hn] at hq hx
    split at hq
    · cases hq
      exact (hrecords _ (State.record_mem_of_done hx) hx).countsOk
    · cases hq

theorem State.nc_nonneg {s : State} {m : Nat} (hnbrs : s.NbrCountsOk m) {r : MbRecord} (hr : r.CountsOk) (c : Comp)
    (b : Nat) : 0 ≤ s.nc r m c b := by
  have htc (ref : BlkRef) (v : Int) (hv : s.blkTc r m c ref = some v) : 0 ≤ v := by
    cases ref with
    | own b => exact Option.some.inj hv ▸ hr c b
    | other x b =>
      obtain ⟨q, hq, rfl⟩ := Option.map_eq_some_iff.mp hv
      exact hnbrs _ _ q hq c b
  unfold State.nc
  split
  · next a b ha hb =>
    have := htc _ a ha
    have := htc _ b hb
    rw [sar_one]
    omega
  · next a ha _ => exact htc _ a ha
  · next b _ hb => exact htc _ b hb
  · exact Int.le_refl 0

/-! ### No raise -/

theorem blockItems_noRaise {s : State} {m : Nat} (hnbrs : s.NbrCountsOk m) {l : List (Comp × Nat)} (hl : ValidBlocks l)
    {r : MbRecord} (hr : r.CountsOk) (hwithin : r.Within 7000) : NoRaise (blockItems s m l r).1 := by
  induction l generalizing r with
  | nil => exact NoRaise.nil
  | cons cb rest ih =>
    obtain ⟨c, b⟩ := cb
    obtain ⟨hb, hrest⟩ := List.forall_mem_cons.mp hl
    have hlen := r.scan_length c b
    have hle := totalCoeff_scan_le r c b
    rw [blockItems_cons]
    refine NoRaise.append (cavlcItems_noRaise (blockShape_of_nonneg (by omega) (State.nc_nonneg hnbrs hr c b))
      fun x hx => ?_) (ih hrest (hr.setTc hb (by omega)) ((r.writtenTo_setTc c b _).within hwithin))
    exact (scanList_natAbs_le (blockSkip_le _ _) (hwithin.1 c b hb) x hx).trans (by decide)

theorem blockItems_countsOk {s : State} {m : Nat} {l : List (Comp × Nat)} (hl : ValidBlocks l) {r : MbRecord}
    (hr : r.CountsOk) : (blockItems s m l r).2.CountsOk := by
  intro c b
  rw [blockItems_tc s m hl]
  split
  · exact Int.natCast_nonneg _
  · exact hr c b

theorem residualItems_noRaise {s : State} {m : Nat} (hnbrs : s.NbrCountsOk m) (cl cc : Nat) {r : MbRecord}
    (hr : r.CountsOk) (hwithin : r.Within 7000) : NoRaise (residualItems s m cl cc r).1 := by
  have hluma : NoRaise (lumaDcItems s m r) := by
    unfold lumaDcItems
    split
    · have hlen : (scanList r.dcY 0).length = 16 := scanList_length _ (by decide)
      rw [← hlen]
      exact cavlcItems_noRaise (blockShape_of_nonneg (by omega) (State.nc_nonneg hnbrs hr .luma 0)) fun x hx =>
        (scanList_natAbs_le (by decide) hwithin.2.1 x hx).trans (by decide)
    · exact NoRaise.nil
  have hchroma : NoRaise ((codedChromaDc cc).flatMap fun c => cavlcItems (rasterList (r.dcc c)) 4 (-1)) := by
    intro x hx
    obtain ⟨c, -, hx⟩ := List.mem_flatMap.mp hx
    refine cavlcItems_noRaise (cs := rasterList (r.dcc c)) blockShape_two (fun v hv => ?_) x hx
    obtain ⟨k, hk, rfl⟩ := List.mem_map.mp hv
    exact (hwithin.2.2 c k (List.mem_range.mp hk)).trans (by decide)
  exact ((hluma.append (blockItems_noRaise hnbrs (validBlocks_codedLuma cl) hr hwithin)).append hchroma).append
    (blockItems_noRaise hnbrs (validBlocks_codedChromaAc cc) (blockItems_countsOk (validBlocks_codedLuma cl) hr)
      ((blockItems_writtenTo s m _ r).within hwithin))

theorem ueCodeword_noRaise {v : Nat} (h : v ≤ 65534) {rest : List Item} (hrest : NoRaise rest) :
    NoRaise (ueCodeword v :: rest) := NoRaise.cons (ueCodeword_of_le h) hrest

/-- The prediction elements change the motion vector difference alone. -/
theorem predictionItems_snd (s : State) (a : EncodeArgs) (r : MbRecord) : (predictionItems s a r).2 =
    { r with mvdx := (predictionItems s a r).2.mvdx, mvdy := (predictionItems s a r).2.mvdy } := by
  unfold predictionItems
  split
  · rfl
  · dsimp only
    split
    · rfl
    · rfl

/-- An inter macroblock's motion vector difference is one that se(v) can carry. -/
def EncodeArgs.SmallMvd (a : EncodeArgs) (s : State) : Prop := a.intra = false →
  (a.mvx - (s.mvp a.m a.slice).1).natAbs ≤ 32767 ∧ (a.mvy - (s.mvp a.m a.slice).2).natAbs ≤ 32767

theorem seMap_le {v : Int} (h : v.natAbs ≤ 32767) : seMap v ≤ 65534 := by
  rw [seMap]
  split <;> omega

theorem MbRecord.FormedBy.counts {r : MbRecord} {a : EncodeArgs} (h : r.FormedBy a) :
    r.tcy = MbRecord.fresh.tcy ∧ r.tcc = MbRecord.fresh.tcc :=
  ⟨(congrArg MbRecord.tcy h.fields).trans rfl, (congrArg MbRecord.tcc h.fields).trans rfl⟩

section
variable {s : State} {a : EncodeArgs} {r : MbRecord} (h : r.FormedBy a) (ha : a.Legal) (hmvd : a.SmallMvd s)
include h ha hmvd

theorem predictionItems_noRaise : NoRaise (predictionItems s a r).1 := by
  have hle := (codedBlockPattern_parts r).1
  unfold predictionItems
  cases hintra : a.intra with
  | true =>
    have hcpm : r.cpm = toWord a.cpm := (congrArg MbRecord.cpm h.fields).trans (by simp [encodeRecord, hintra])
    have hcpm3 := toNat_toWord_le (n := 3) (ha.cpm hintra) (by decide)
    rw [if_pos rfl]
    exact ueCodeword_noRaise (by rw [hcpm]; omega) NoRaise.nil
  | false =>
    obtain ⟨hx, hy⟩ := hmvd hintra
    have hchk {v : Int} (hv : v.natAbs ≤ 32767) : chk v = .ok v := chk_ok (by omega) (by omega)
    have hpattern : r.cbp.toInt = codedBlockPattern r := by
      rw [h.pattern]
      exact toInt_toWord_of_le (hle.trans (by decide))
    rw [if_neg Bool.false_ne_true]
    dsimp only
    rw [hchk hx, hchk hy, hpattern, cbpCodeword_of_within hle]
    exact ueCodeword_noRaise (seMap_le hx) (ueCodeword_noRaise (seMap_le hy)
      (ueCodeword_noRaise ((cbpTab_cbpInv false _ hle).1.trans (by decide)) NoRaise.nil))

theorem layerItems_noRaise (hpred : 0 ≤ s.qpPred a.m a.slice a.sliceQp ∧ s.qpPred a.m a.slice a.sliceQp ≤ 51)
    (hnbrs : s.NbrCountsOk a.m) (hwithin : r.Within 7000) : NoRaise (layerItems s a r).1 := by
  have hwritten := predictionItems_writtenTo s a r
  have htype : r.mbType.toNat ≤ 65534 := by
    have hval := h.type_spec.1
    have htype := h.type
    rw [setType_eq_ok_iff] at htype
    have := (codedBlockPattern_parts r).1
    omega
  have hcounts : (predictionItems s a r).2.CountsOk := by
    have hq := predictionItems_snd s a r
    have htcy : (predictionItems s a r).2.tcy = r.tcy := (congrArg MbRecord.tcy hq).trans rfl
    have htcc : (predictionItems s a r).2.tcc = r.tcc := (congrArg MbRecord.tcc hq).trans rfl
    exact MbRecord.countsOk_of_fresh (htcy.trans h.counts.1) (htcc.trans h.counts.2)
  rw [layerItems_eq h.intra]
  refine ueCodeword_noRaise htype ((predictionItems_noRaise h ha hmvd).append ?_)
  unfold layerTail
  split
  · exact ueCodeword_noRaise (seMap_qpDelta_le ha.qp hpred)
      (residualItems_noRaise hnbrs _ _ (r := { (predictionItems s a r).2 with qp := toWord a.qp }) hcounts
        (hwritten.within hwithin))
  · exact NoRaise.nil

end

/-! ### How many writes -/

theorem levelItems_count (reduced : Bool) (sL : Nat) (lv : List Int) :
    (levelItems reduced sL lv).length ≤ 2 * lv.length := by
  induction lv generalizing reduced sL with
  | nil => exact Nat.le_refl 0
  | cons l rest ih =>
    rw [levelItems_cons]
    split
    · simp
      omega
    · next p suffix size _ =>
      have hbits : (levelBits p suffix size).length ≤ 2 := by
        unfold levelBits
        split <;> simp
      have := ih false (nextSuffix sL l)
      simp only [List.length_append, List.length_cons]
      omega

theorem runItems_count (zl : Nat) (rs : List Nat) : (runItems zl rs).length ≤ rs.length := by
  induction rs generalizing zl with
  | nil => exact Nat.le_refl 0
  | cons r rest ih =>
    rw [runItems]
    split
    · simpa using ih (zl - r)
    · exact (ih zl).trans (Nat.le_succ _)

theorem runs_length_le (cs : List Int) : (runs cs).length ≤ totalCoeff cs := by
  rw [runs_eq, totalCoeff_eq]
  simp

theorem cavlcItems_count {cs : List Int} (hlen : cs.length ≤ 16) (maxN : Nat) (nc : Int) :
    (cavlcItems cs maxN nc).length ≤ 52 := by
  have htc := totalCoeff_le cs
  rcases Nat.eq_zero_or_pos (totalCoeff cs) with hzero | hpos
  · rw [cavlcItems_of_zero hzero, List.length_singleton]
    decide
  · have hones := trailingOnes_le cs
    have hparts := block_lengths cs
    have hlevels := levelItems_count (decide ((blockOnes cs).length < 3))
      (initialSuffix (totalCoeff cs) (blockOnes cs).length) (blockRest cs)
    have hruns := (runItems_count (totalZeros cs) (runs cs)).trans (runs_length_le cs)
    have htz : (if totalCoeff cs < maxN then [codecStep (tzCode maxN (totalZeros cs) (totalCoeff cs))]
        else ([] : List Item)).length ≤ 1 := by split <;> simp
    rw [← blockOnes_length] at hones
    rw [cavlcItems_of_pos hpos, headItems, tailItems]
    simp only [List.length_append, List.length_cons, List.length_map]
    omega

theorem blockItems_count (s : State) (m : Nat) (l : List (Comp × Nat)) (r : MbRecord) :
    (blockItems s m l r).1.length ≤ 52 * l.length := by
  induction l generalizing r with
  | nil => exact Nat.le_refl 0
  | cons cb rest ih =>
    obtain ⟨c, b⟩ := cb
    have hlen := r.scan_length c b
    have hblock := cavlcItems_count (cs := r.scan c b) (by omega) (r.scan c b).length (s.nc r m c b)
    have hrest := ih (r.setTc c b (totalCoeff (r.scan c b)))
    rw [blockItems_cons, List.length_append, List.length_cons]
    omega

theorem codedBlocks_count (cl cc : Nat) :
    (codedLuma cl).length ≤ 16 ∧ (codedChromaAc cc).length ≤ 8 ∧ (codedChromaDc cc).length ≤ 2 := by
  refine ⟨?_, ?_, ?_⟩
  · rw [codedLuma, List.length_map]
    exact (List.length_filter_le _ _).trans (by simp)
  · unfold codedChromaAc
    split <;> decide
  · unfold codedChromaDc
    split <;> decide

theorem residualItems_count (s : State) (m cl cc : Nat) (r : MbRecord) :
    (residualItems s m cl cc r).1.length ≤ 52 * 27 := by
  obtain ⟨hl, hac, hdc⟩ := codedBlocks_count cl cc
  have hluma := blockItems_count s m (codedLuma cl) r
  have hchroma := blockItems_count s m (codedChromaAc cc) (blockItems s m (codedLuma cl) r).2
  have hlumaDc : (lumaDcItems s m r).length ≤ 52 := by
    unfold lumaDcItems
    split
    · exact cavlcItems_count (scanList_length _ (by decide)).le _ _
    · exact Nat.zero_le _
  have hchromaDc : ((codedChromaDc cc).flatMap fun c => cavlcItems (rasterList (r.dcc c)) 4 (-1)).length ≤
      52 * (codedChromaDc cc).length := by
    generalize codedChromaDc cc = l
    induction l with
    | nil => exact Nat.le_refl 0
    | cons c rest ih =>
      have hblock := cavlcItems_count (cs := rasterList (r.dcc c)) (by decide : 4 ≤ 16) 4 (-1)
      rw [List.flatMap_cons, List.length_append, List.length_cons]
      omega
  have hsplit : (residualItems s m cl cc r).1 = lumaDcItems s m r ++ (blockItems s m (codedLuma cl) r).1 ++
    ((codedChromaDc cc).flatMap fun c => cavlcItems (rasterList (r.dcc c)) 4 (-1)) ++
      (blockItems s m (codedChromaAc cc) (blockItems s m (codedLuma cl) r).2).1 := rfl
  rw [hsplit]
  simp only [List.length_append]
  omega

theorem predictionItems_count (s : State) (a : EncodeArgs) (r : MbRecord) : (predictionItems s a r).1.length ≤ 3 := by
  unfold predictionItems
  split
  · exact (by decide : 1 ≤ 3)
  · dsimp only
    split
    · exact Nat.le_refl 3
    · exact (by decide : 1 ≤ 3)

/-- A macroblock_layer has at most 65536 bits (30 R112). -/
theorem layerItems_bits_le {s : State} {a : EncodeArgs} {r : MbRecord} (h : r.intra = a.intra) {bs : List Bool}
    (hbits : itemsBits (layerItems s a r).1 = some bs) : bs.length ≤ 65536 := by
  have hrun := itemsRun_length_le (layerItems_writable s a r)
  rw [itemsBits_eq_some_iff.mp hbits] at hrun
  have hprediction := predictionItems_count s a r
  have htail : (layerTail s a (predictionItems s a r).2).1.length ≤ 1 + 52 * 27 := by
    unfold layerTail
    split
    · rw [List.length_cons, Nat.add_comm]
      exact Nat.add_le_add_left (residualItems_count _ _ _ _ _) 1
    · exact Nat.zero_le _
  rw [layerItems_eq h, List.length_cons, List.length_append] at hrun
  dsimp only at hrun
  exact hrun.trans (by omega)

end Sys2Proof.Machine
end

section
/-! PROOFS. MB_ENCODE codes a macroblock of 8-bit sample differences (45 R350, R352, R375). -/

namespace Sys2Proof.Machine

/-! ### The record that MB_ENCODE forms -/

theorem cbpLuma_of_intra {r : MbRecord} (h : r.intra = true) : cbpLuma r = 0 ∨ cbpLuma r = 15 := by
  rw [cbpLuma, if_pos h]
  split
  · exact .inr rfl
  · exact .inl rfl

theorem State.exists_forms {s : State} (hready : s.EncodeReady) (hsmall : s.SmallSamples s.mArg) : ∃ r, s.Forms r := by
  obtain ⟨r₁, h₁⟩ := encodeTransform_ok hsmall (a := s.encodeArgs) rfl hready.legal.qp.2 (encodeRecord s.encodeArgs)
  have hintra : r₁.intra = s.encodeArgs.intra :=
    (congrArg MbRecord.intra (encodeTransform_eq_ok h₁).2).trans rfl
  obtain ⟨hle, hluma, -⟩ := codedBlockPattern_parts r₁
  suffices htype : ∃ t, setType s.encodeArgs.st (boolInt s.encodeArgs.intra) s.encodeArgs.pm (codedBlockPattern r₁) = .ok t by
    obtain ⟨t, ht⟩ := htype
    exact ⟨_, r₁, t, h₁, ht, rfl⟩
  cases ha : s.encodeArgs.intra with
  | false => exact ⟨0, setType_eq_ok_iff.mpr (.inl ⟨hready.legal.inter ha, rfl, rfl⟩)⟩
  | true =>
    have hluma' := cbpLuma_of_intra (hintra.trans ha)
    obtain ⟨-, hslice, ⟨-, hmode⟩, -⟩ := hready
    obtain ⟨-, hpm0, hpm3, -⟩ := hmode.resolve_right fun hno => by
      have := of_decide_eq_true ha
      omega
    exact ⟨_, setType_eq_ok_iff.mpr (.inr ⟨hslice, rfl, hpm0, hpm3, by omega, by omega, by omega, rfl⟩)⟩

/-! ### The fields of a written record -/

theorem toWord_argInt (s : State) (i : Nat) : toWord (s.argInt i) = s.getArg i := BitVec.ofInt_toInt

theorem layerTail_mvd (s : State) (a : EncodeArgs) (q : MbRecord) :
    (layerTail s a q).2.mvdx = q.mvdx ∧ (layerTail s a q).2.mvdy = q.mvdy := by
  unfold layerTail
  split
  · have hsame := residualItems_sameBlocks s a.m (q.cbp.toNat % 16) (q.cbp.toNat / 16) { q with qp := toWord a.qp }
    exact ⟨(congrArg MbRecord.mvdx hsame).trans rfl, (congrArg MbRecord.mvdy hsame).trans rfl⟩
  · exact ⟨rfl, rfl⟩

theorem predictionItems_mvd_of_intra {s : State} {a : EncodeArgs} {r : MbRecord} (h : a.intra = true) :
    (predictionItems s a r).2 = r := by
  rw [predictionItems, if_pos h]

theorem predictionItems_mvd_of_inter {s : State} {a : EncodeArgs} {r : MbRecord} (h : a.intra = false)
    (hmvd : a.SmallMvd s) : (predictionItems s a r).2.mvdx.toInt = a.mvx - (s.mvp a.m a.slice).1 ∧
      (predictionItems s a r).2.mvdy.toInt = a.mvy - (s.mvp a.m a.slice).2 := by
  obtain ⟨hx, hy⟩ := hmvd h
  have hchk {v : Int} (hv : v.natAbs ≤ 32767) : chk v = .ok v := chk_ok (by omega) (by omega)
  have hword {v : Int} (hv : v.natAbs ≤ 32767) : (toWord v).toInt = v :=
    toInt_toWord (chk_eq_ok_iff.mp (hchk hv)).1
  rw [predictionItems, if_neg (by rw [h]; exact Bool.false_ne_true)]
  dsimp only
  rw [hchk hx, hchk hy]
  exact ⟨hword hx, hword hy⟩

/-- The count of a block that is not coded is 0, and so is the number of its coefficients that are not 0. -/
theorem nonzero_count_zero16 : ((List.range 16).filter fun k => decide (vecInt zero16 k ≠ 0)).length = 0 := by decide

theorem residualItems_tc {s : State} {m cl cc : Nat} {r : MbRecord} (hapart : r.DcApart) (hcoded : r.CodedBy cl cc)
    (hfresh : ∀ c b, r.tc c b = 0) (c : Comp) {b : Nat} (hb : b < c.across * c.across) :
    (residualItems s m cl cc r).2.tc c b =
      (((List.range 16).filter fun k => decide (vecInt (r.coef c b) k ≠ 0)).length : Int) := by
  have hwritten := blockItems_writtenTo s m (codedLuma cl) r
  have hscan : (blockItems s m (codedLuma cl) r).2.scan c b = r.scan c b := by
    rw [MbRecord.scan, MbRecord.scan, hwritten.coef, hwritten.intra]
  have htc : (residualItems s m cl cc r).2.tc c b = if (c, b) ∈ codedChromaAc cc then (totalCoeff (r.scan c b) : Int)
      else if (c, b) ∈ codedLuma cl then (totalCoeff (r.scan c b) : Int) else r.tc c b := by
    have hlast := blockItems_tc s m (validBlocks_codedChromaAc cc) (blockItems s m (codedLuma cl) r).2 c b
    rw [hscan, blockItems_tc s m (validBlocks_codedLuma cl)] at hlast
    exact hlast
  rw [htc, hapart.totalCoeff_scan c hb]
  by_cases hl : (c, b) ∈ codedLuma cl
  · rw [if_pos hl, ite_self]
  · by_cases hc : (c, b) ∈ codedChromaAc cc
    · rw [if_pos hc]
    · rw [if_neg hc, if_neg hl, hfresh, hcoded.zero hb hl hc, nonzero_count_zero16]
      rfl

theorem MbRecord.tc_of_fresh {r : MbRecord} (hy : r.tcy = MbRecord.fresh.tcy) (hc : r.tcc = MbRecord.fresh.tcc) (c : Comp)
    (b : Nat) : r.tc c b = 0 := by
  have hzero {n : Nat} (k : Nat) : vecInt (Vector.replicate n (0 : Word)) k = 0 := by
    rcases Nat.lt_or_ge k n with hk | hk <;> simp [vecInt, Vector.getD, hk]
  have hrow (i : Nat) (hi : i < 2) : MbRecord.fresh.tcc.getD i (Vector.replicate 4 0) = Vector.replicate 4 0 := by
    interval_cases i <;> rfl
  cases c with
  | luma =>
    rw [MbRecord.tc, hy]
    exact hzero b
  | cb =>
    rw [MbRecord.tc, hc, hrow 0 (by decide)]
    exact hzero b
  | cr =>
    rw [MbRecord.tc, hc, hrow 1 (by decide)]
    exact hzero b

section
variable {s : State} {a : EncodeArgs} {r : MbRecord} (h : r.FormedBy a)
include h

/-- The counts of a written record are the numbers of coefficients that are not 0 (45 R352). -/
theorem layerItems_tc (c : Comp) {b : Nat} (hb : b < c.across * c.across) : (layerItems s a r).2.tc c b =
    (((List.range 16).filter fun k => decide (vecInt ((layerItems s a r).2.coef c b) k ≠ 0)).length : Int) := by
  obtain ⟨hy, hc⟩ := h.counts
  have hsnd := predictionItems_snd s a r
  have hwritten := predictionItems_writtenTo s a r
  have hfresh (q : Word) : ∀ c b, MbRecord.tc { (predictionItems s a r).2 with qp := q } c b = 0 :=
    MbRecord.tc_of_fresh (((congrArg MbRecord.tcy hsnd).trans rfl).trans hy)
      (((congrArg MbRecord.tcc hsnd).trans rfl).trans hc)
  have hcoded := hwritten.codedBy h.codedBy
  have hapart := hwritten.dcApart h.apart
  rw [(layerItems_writtenTo s a r).coef, ← hwritten.coef, layerItems_eq h.intra]
  unfold layerTail
  by_cases hcond : ((predictionItems s a r).2.intra || decide ((predictionItems s a r).2.cbp ≠ 0)) = true
  · rw [if_pos hcond]
    rw [← hwritten.cbp] at hcoded
    exact residualItems_tc (r := { (predictionItems s a r).2 with qp := toWord a.qp }) hapart
      ⟨hcoded.luma, hcoded.chroma, hcoded.chromaDc⟩ (hfresh _) c hb
  · rw [if_neg hcond]
    simp only [Bool.or_eq_true, decide_eq_true_eq, not_or, not_not] at hcond
    rw [← hwritten.cbp, hcond.2] at hcoded
    rw [hcoded.zero hb (by simp [codedLuma]) (by simp [codedChromaAc]), nonzero_count_zero16]
    exact hfresh _ c b

/-- The record before its macroblock_layer was written, from the record after (45 R352). -/
theorem uncounted_layerItems : (layerItems s a r).2.coded.uncounted = r := by
  have hwritten := layerItems_writtenTo s a r
  have huncounted : (layerItems s a r).2.coded.uncounted =
      { r with done := false, qp := 0, mvdx := 0, mvdy := 0, tcy := MbRecord.fresh.tcy, tcc := MbRecord.fresh.tcc } := by
    rw [hwritten]
    rfl
  rw [huncounted]
  exact (congrArg (fun q : MbRecord => { q with
    done := false, qp := 0, mvdx := 0, mvdy := 0, tcy := MbRecord.fresh.tcy, tcc := MbRecord.fresh.tcc }) h.fields).trans
      h.fields.symm

end

end Sys2Proof.Machine
end

section
/-! PROOFS. How MB_ENCODE ends when its macroblock_layer holds no raise (45 R352, R375). -/

namespace Sys2Proof.Machine

theorem State.mbCommand_of_body_error {α : Type} (s : State) (ws : α → WriteSet) {check : Except Err α}
    {body : α → Except Err State} {a : α} {e : Err} (hcheck : check = .ok a) (hbody : body a = .error e) :
    s.mbCommand ws check body = (s.spoil (ws a)).failMb e := by
  subst hcheck
  simp only [State.mbCommand, State.command, hbody]

section
variable {s : State} {r : MbRecord} (hforms : s.Forms r)
include hforms

theorem encodeBody_of_forms : encodeBody s s.encodeArgs = writeRecord s s.encodeArgs r := by
  rw [encodeBody_eq, formRecord_eq_ok_iff.mpr hforms, except_ok_bind]

theorem State.Forms.unique {r' : MbRecord} (h : s.Forms r') : r' = r :=
  Except.ok.inj ((formRecord_eq_ok_iff.mpr h).symm.trans (formRecord_eq_ok_iff.mpr hforms))

end

section
variable {s : State} (hready : s.EncodeReady) {r : MbRecord} (hforms : s.Forms r)
include hready hforms

/-- Where its bits fit, MB_ENCODE writes them. -/
theorem exec_mbEncode_of_room {bs : List Bool} (hbits : itemsBits (layerItems s s.encodeArgs r).1 = some bs)
    (hroom : s.Room bs.length) : exec .mbEncode s = .next (s.leaves (s.encoded r bs) bs) := by
  have hwrite := (Stream.writeItems_eq_ok_iff (layerItems_writable s s.encodeArgs r) (st := s.stream)).mpr
    ⟨bs, hbits, .inr hroom, rfl⟩
  have hbody := encodeBody_of_forms hforms
  rw [writeRecord, hwrite, except_ok_bind] at hbody
  have hexec := exec_mbEncode s
  rw [s.mbCommand_of_ok _ (encodeCheck_eq_ok_iff.mpr ⟨hready, rfl⟩) hbody] at hexec
  obtain ⟨r', bs', -, hforms', hbits', -, hend⟩ := exec_mbEncode_completed hexec (by rw [State.succeed_eq])
  obtain rfl := hforms.unique hforms'
  obtain rfl := Option.some.inj (hbits.symm.trans hbits')
  rw [hexec, hend]

/-- Where its bits do not fit, MB_ENCODE ends with MbFailure, CAUSE StreamOverflow. -/
theorem exec_mbEncode_of_not_room {bs : List Bool} (hbits : itemsBits (layerItems s s.encodeArgs r).1 = some bs)
    (hroom : ¬ s.Room bs.length) : Ends .mbEncode s 0x409 := by
  have hwrite := Stream.writeItems_eq (layerItems_writable s s.encodeArgs r) s.stream
  rw [itemsBits_eq_some_iff.mp hbits, if_neg] at hwrite
  · have hbody := encodeBody_of_forms hforms
    rw [writeRecord, hwrite, except_error_bind] at hbody
    refine ⟨_, exec_mbEncode s, ?_⟩
    rw [s.mbCommand_of_body_error _ (encodeCheck_eq_ok_iff.mpr ⟨hready, rfl⟩) hbody]
    rfl
  · rintro (hnil | hfit)
    · obtain rfl : bs = [] := hnil
      exact absurd (layerItems_bits_pos hbits) (by decide)
    · exact hroom hfit

end

/-! ### The state that MB_ENCODE leaves -/

theorem Stream.eq_put {st t : Stream} {bs : List Bool} (hbuf : t.buf = (st.put bs).buf) (hbase : t.base = st.base)
    (hlen : t.len = st.len) (hpos : t.pos = st.pos + bs.length) : t = st.put bs := by
  rw [← Stream.put_base st bs] at hbase
  rw [← Stream.put_len st bs] at hlen
  rw [← Stream.put_pos st bs] at hpos
  cases t
  cases h : st.put bs
  simp_all

section
variable {s : State} {r : MbRecord} {bs : List Bool}

theorem State.encoded_only : s.leaves (s.encoded r bs) bs =
    { s with bsbuf := (s.leaves (s.encoded r bs) bs).bsbuf, bsPos := (s.leaves (s.encoded r bs) bs).bsPos,
             res := (s.leaves (s.encoded r bs) bs).res, mbs := (s.leaves (s.encoded r bs) bs).mbs, status := 0 } := by
  rw [State.encoded_eq, State.finished_eq]
  rfl

theorem State.encoded_wrote (hroom : s.Room bs.length) : s.Wrote (s.leaves (s.encoded r bs) bs) bs := by
  refine State.wrote_of_stream_eq (Stream.eq_put rfl ?_ ?_ (State.encoded_bsPos (r := r) hroom))
  · change (s.leaves (s.encoded r bs) bs).bsBase.toNat = s.bsBase.toNat
    rw [State.encoded_only]
  · change (s.leaves (s.encoded r bs) bs).bsLen.toNat = s.bsLen.toNat
    rw [State.encoded_only]

end

end Sys2Proof.Machine
end

section
/-! PROOFS. The record, bits and results of a coded macroblock (45 R334, R335, R350, R352, R375). -/

namespace Sys2Proof.Machine

theorem encodeRecord_of_intra {a : EncodeArgs} (h : a.intra = true) : (encodeRecord a).pm = toWord a.pm ∧
    (encodeRecord a).cpm = toWord a.cpm ∧ (encodeRecord a).mvx = 0 ∧ (encodeRecord a).mvy = 0 :=
  ⟨if_pos h, if_pos h, if_pos h, if_pos h⟩

theorem encodeRecord_of_inter {a : EncodeArgs} (h : a.intra = false) : (encodeRecord a).pm = 0 ∧
    (encodeRecord a).cpm = 0 ∧ (encodeRecord a).mvx = toWord a.mvx ∧ (encodeRecord a).mvy = toWord a.mvy := by
  have hno : ¬ a.intra = true := by rw [h]; exact Bool.false_ne_true
  exact ⟨if_neg hno, if_neg hno, if_neg hno, if_neg hno⟩

/-- The record that MB_ENCODE leaves for the record `r` it formed. -/
def State.written (s : State) (r : MbRecord) : MbRecord := (layerItems s s.encodeArgs r).2.coded

section
variable {s : State} {r : MbRecord} (h : r.FormedBy s.encodeArgs)
include h

/-- The fields that the writing of the macroblock_layer keeps, as the operands give them. -/
theorem State.written_fields : s.written r = { encodeRecord s.encodeArgs with
    done := true, qp := (s.written r).qp, mvdx := (s.written r).mvdx, mvdy := (s.written r).mvdy, cbp := r.cbp,
    mbType := r.mbType, tcy := (s.written r).tcy, tcc := (s.written r).tcc, coefY := r.coefY, dcY := r.dcY,
    coefC := r.coefC, dcC := r.dcC } := by
  have hwritten : s.written r = MbRecord.coded { r with
      qp := (s.written r).qp, mvdx := (s.written r).mvdx, mvdy := (s.written r).mvdy, tcy := (s.written r).tcy,
      tcc := (s.written r).tcc } := congrArg MbRecord.coded (layerItems_writtenTo s s.encodeArgs r)
  rw [hwritten]
  exact congrArg (fun q : MbRecord => MbRecord.coded { q with
    qp := (s.written r).qp, mvdx := (s.written r).mvdx, mvdy := (s.written r).mvdy, tcy := (s.written r).tcy,
    tcc := (s.written r).tcc }) h.fields

theorem State.written_cbp : (s.written r).cbp = r.cbp := (congrArg MbRecord.cbp (State.written_fields h)).trans rfl

theorem State.written_qp : (s.written r).qp = if s.encodeArgs.intra || (s.written r).cbp ≠ 0 then s.getArg 3
    else toWord (s.qpPred s.mArg (s.getArg 1) (s.argInt 9)) := by
  have hq := predictionItems_writtenTo s s.encodeArgs r
  have htail := layerTail_qp s s.encodeArgs (predictionItems s s.encodeArgs r).2
  rw [hq.intra, hq.cbp, h.intra] at htail
  have hqp : (s.written r).qp = (layerTail s s.encodeArgs (predictionItems s s.encodeArgs r).2).2.qp := by
    rw [State.written, layerItems_eq h.intra]
    rfl
  rw [hqp, htail, State.written_cbp h, ← toWord_argInt]
  rfl

theorem State.written_mvd : (s.written r).mvdx = (predictionItems s s.encodeArgs r).2.mvdx ∧
    (s.written r).mvdy = (predictionItems s s.encodeArgs r).2.mvdy := by
  have htail := layerTail_mvd s s.encodeArgs (predictionItems s s.encodeArgs r).2
  rw [State.written, layerItems_eq h.intra]
  exact htail

/-- The prediction fields of the record are those it was formed with. -/
theorem State.written_prediction : (s.written r).pm = (encodeRecord s.encodeArgs).pm ∧
    (s.written r).cpm = (encodeRecord s.encodeArgs).cpm ∧ (s.written r).mvx = (encodeRecord s.encodeArgs).mvx ∧
    (s.written r).mvy = (encodeRecord s.encodeArgs).mvy :=
  have hfields := State.written_fields h
  ⟨(congrArg MbRecord.pm hfields).trans rfl, (congrArg MbRecord.cpm hfields).trans rfl,
    (congrArg MbRecord.mvx hfields).trans rfl, (congrArg MbRecord.mvy hfields).trans rfl⟩

/-- The fields of an Intra_16x16 macroblock's record (45 R334, R375). -/
theorem State.written_intra (hintra : s.argInt 4 = 1) : (s.written r).pm = s.getArg 5 ∧ (s.written r).cpm = s.getArg 6 ∧
    (s.written r).qp = s.getArg 3 ∧ (s.written r).mvx = 0 ∧ (s.written r).mvy = 0 ∧ (s.written r).mvdx = 0 ∧
    (s.written r).mvdy = 0 := by
  have ha : s.encodeArgs.intra = true := decide_eq_true hintra
  obtain ⟨hpm, hcpm, hmvx, hmvy⟩ := State.written_prediction h
  obtain ⟨hpm', hcpm', hmvx', hmvy'⟩ := encodeRecord_of_intra ha
  obtain ⟨hdx, hdy⟩ := State.written_mvd h
  rw [predictionItems_mvd_of_intra ha] at hdx hdy
  have hqp := State.written_qp h
  rw [ha, Bool.true_or, if_pos rfl] at hqp
  exact ⟨(hpm.trans hpm').trans (toWord_argInt s 5), (hcpm.trans hcpm').trans (toWord_argInt s 6), hqp, hmvx.trans hmvx',
    hmvy.trans hmvy', hdx.trans ((congrArg MbRecord.mvdx h.fields).trans rfl),
    hdy.trans ((congrArg MbRecord.mvdy h.fields).trans rfl)⟩

/-- The fields of an inter macroblock's record (45 R328, R334, R340, R375). -/
theorem State.written_inter (hinter : s.argInt 4 = 0) (hgrid : s.OnGrid) (hmvd : s.encodeArgs.SmallMvd s)
    (hpred : 0 ≤ s.qpPred s.mArg (s.getArg 1) (s.argInt 9) ∧ s.qpPred s.mArg (s.getArg 1) (s.argInt 9) ≤ 51) :
    (s.written r).pm = 0 ∧ (s.written r).cpm = 0 ∧ (s.written r).mvx = s.getArg 7 ∧ (s.written r).mvy = s.getArg 8 ∧
    (s.written r).mvdx.toInt = s.argInt 7 - (s.mvpSpec s.mArg (s.getArg 1)).1 ∧
    (s.written r).mvdy.toInt = s.argInt 8 - (s.mvpSpec s.mArg (s.getArg 1)).2 ∧
    ((s.written r).cbp ≠ 0 → (s.written r).qp = s.getArg 3) ∧
    ((s.written r).cbp = 0 → (s.written r).qp.toInt = s.qpPredSpec s.mArg (s.getArg 1) (s.argInt 9)) := by
  have ha : s.encodeArgs.intra = false := decide_eq_false (by omega)
  obtain ⟨hpm, hcpm, hmvx, hmvy⟩ := State.written_prediction h
  obtain ⟨hpm', hcpm', hmvx', hmvy'⟩ := encodeRecord_of_inter ha
  obtain ⟨hdx, hdy⟩ := State.written_mvd h
  obtain ⟨hx, hy⟩ := predictionItems_mvd_of_inter (r := r) ha hmvd
  have hmvp := State.mvp_eq_mvpSpec hgrid.mArg_lt (s.getArg 1)
  have hqp := State.written_qp h
  rw [ha, Bool.false_or] at hqp
  refine ⟨hpm.trans hpm', hcpm.trans hcpm', (hmvx.trans hmvx').trans (toWord_argInt s 7),
    (hmvy.trans hmvy').trans (toWord_argInt s 8), ?_, ?_, fun hcbp => ?_, fun hcbp => ?_⟩
  · rw [hdx, hx, ← hmvp]
    rfl
  · rw [hdy, hy, ← hmvp]
    rfl
  · rw [hqp, if_pos (decide_eq_true hcbp)]
  · rw [hqp, if_neg (by simpa using hcbp), toInt_toWord (by rw [inInt32, within_eq_true_iff]; omega)]
    simp only [State.qpPred, State.qpPredSpec, Nat.pos_iff_ne_zero]

/-- The mb_type of the record (45 R335). -/
theorem State.written_mbType : (s.written r).mbType.toInt =
    mbTypeSpec (s.argInt 2) (s.written r).intra (s.argInt 5) (s.written r).cbp.toInt := by
  have hfields := State.written_fields h
  have hintra : (s.written r).intra = s.encodeArgs.intra := (congrArg MbRecord.intra hfields).trans rfl
  have htype : (s.written r).mbType = r.mbType := (congrArg MbRecord.mbType hfields).trans rfl
  have hcbp : r.cbp.toInt = codedBlockPattern r := by
    rw [h.pattern]
    exact toInt_toWord_of_le ((codedBlockPattern_parts r).1.trans (by decide))
  have hset := h.type
  rw [setType_eq_ok_iff] at hset
  rw [hintra, htype, State.written_cbp h, hcbp, mbTypeSpec]
  cases ha : s.encodeArgs.intra with
  | false =>
    rw [ha] at hset
    exact (hset.resolve_right fun hno => absurd hno.2.1 (by decide)).2.2
  | true =>
    rw [ha] at hset
    exact (hset.resolve_left fun hno => absurd hno.2.1 (by decide)).2.2.2.2.2.2.2

end

/-- Settles O49: the transform stage completes, the writes hold no raise, and the record is the one they leave. -/
theorem mbEncodeCompletes : Obligations.MbEncodeCompletes := by
  intro s hinv hready hsmall hmvd
  obtain ⟨r, hforms⟩ := State.exists_forms hready hsmall
  have h := hforms.formedBy
  have hm := (hready.1.bounds hinv.grid hinv.store).1
  have hmvp := State.mvp_eq_mvpSpec hready.1.mArg_lt (s.getArg 1)
  have hpred := State.qpPred_bounds hinv.records hready.2.2.2 (s.getArg 1) hready.decodeReady.2.2.1
  have hmvd' : s.encodeArgs.SmallMvd s := fun ha => by
    have hinter : s.argInt 4 = 0 := (hready.2.2.1.2.resolve_left fun hno => of_decide_eq_false ha hno.1).1
    have hsmallMvd := hmvd hinter
    rw [← hmvp] at hsmallMvd
    exact hsmallMvd
  have hnbrs := State.nbrCountsOk hinv.records hready.1.mArg_lt hready.2.2.2.2.1
  obtain ⟨bs, hbits⟩ := exists_itemsBits (layerItems_noRaise h hready.legal hmvd' hpred hnbrs
    (hforms.within hsmall hready.legal.qp.2))
  have hwritten := layerItems_writtenTo s s.encodeArgs r
  refine ⟨s.written r, bs, rfl, ?_, ?_, ?_, State.written_intra h, fun hinter => State.written_inter h hinter hready.1 hmvd'
    hpred, hwritten.quantisedAs hforms.quantisedAs, ?_, State.written_mbType h, fun c b hb => layerItems_tc h c hb, ?_,
    layerItems_bits_le h.intra hbits, fun hroom => ?_, exec_mbEncode_of_not_room hready hforms hbits⟩
  · exact (congrArg MbRecord.slice (State.written_fields h)).trans rfl
  · exact ((congrArg MbRecord.stype (State.written_fields h)).trans rfl).trans (toWord_argInt s 2)
  · exact (congrArg MbRecord.intra (State.written_fields h)).trans rfl
  · rw [State.written_cbp h, h.cbp_toNat]
    exact (codedBlockPattern_parts r).1
  · rw [State.written, uncounted_layerItems h]
    exact hbits
  · refine ⟨_, exec_mbEncode_of_room hready hforms hbits hroom, State.encoded_only, State.encoded_record hm,
      (record_of_mbs (.inr ⟨_, State.encoded_mbs⟩)).2, State.encoded_wrote hroom, ?_⟩
    rw [State.written, ← mbResults_eq]
    exact State.encoded_results

end Sys2Proof.Machine
end

section
/-! PROOFS. Every command keeps the memories in canonical form, within their sizes (10 R34 to R36). -/

namespace Sys2Proof.Machine

/-! ### Writes within a plane -/

/-- Every output plane is in canonical form, within its size (10 R36). -/
def State.PoutOk (s : State) : Prop := ∀ p, memWf (planeSize s.cfg p) (s.pout p) = true

theorem planeHeight_eq (c : Config) (p : Plane) : planeHeight c p = viewSide p * c.maxMbh := by cases p <;> rfl

theorem planeIndex_lt {c : Config} {p : Plane} {row col : Nat} (hrow : row < planeHeight c p)
    (hcol : col < planeWidth c p) : planeIndex c p row col < planeSize c p := by
  have hnext : (row + 1) * planeWidth c p ≤ planeHeight c p * planeWidth c p := Nat.mul_le_mul_right _ hrow
  rw [Nat.succ_mul] at hnext
  unfold planeIndex planeSize
  omega

theorem State.PoutOk.writePout {s : State} (h : s.PoutOk) {p : Plane} {row col : Nat} (hrow : row < planeHeight s.cfg p)
    (hcol : col < planeWidth s.cfg p) (w : Word) : (s.writePout p row col w).PoutOk := by
  intro q
  rw [State.writePout, State.setPout_pout, State.setPout_cfg]
  split
  · next hq =>
    subst hq
    exact memWf_memWrite w (h q) (planeIndex_lt hrow hcol)
  · exact h q

theorem State.spoilView_eq_fillView (t : State) (d : Nat) (p : Plane) (m : Nat) : t.spoilView d p m =
    t.fillView p m (fun i j => Config.freeWord d (.pout p i j)) (square (viewSide p)) := rfl

section
variable {s : State} {m : Nat} (hcol : m % s.gridW.toNat < s.cfg.maxMbw) (hrow : m / s.gridW.toNat < s.cfg.maxMbh)
include hcol hrow

/-- Writes to samples of a macroblock's view lie within the plane. -/
theorem State.OnlyPout.fillView_poutOk {t : State} (h : s.OnlyPout t) (ht : t.PoutOk) (p : Plane)
    (f : Nat → Nat → Word) {l : List (Nat × Nat)} (hl : ∀ ij ∈ l, ij ∈ square (viewSide p)) :
    (t.fillView p m f l).PoutOk := by
  induction l generalizing t with
  | nil => exact ht
  | cons ij l ih =>
    obtain ⟨hij, hrest⟩ := List.forall_mem_cons.mp hl
    obtain ⟨hi, hj⟩ := mem_square.mp hij
    have hrow' : t.viewRow p m ij.1 < planeHeight t.cfg p := by
      have hnext : viewSide p * (m / s.gridW.toNat + 1) ≤ viewSide p * s.cfg.maxMbh := Nat.mul_le_mul_left _ hrow
      rw [Nat.mul_succ] at hnext
      rw [h.viewRow, h.cfg, planeHeight_eq, State.viewRow, State.mby]
      omega
    have hcol' : t.viewCol p m ij.2 < planeWidth t.cfg p := by
      rw [h.viewCol, h.cfg]
      exact State.viewCol_lt hcol hj
    exact ih (h.trans (State.writePout_only ..)) (ht.writePout hrow' hcol' _) hrest

theorem State.OnlyPout.writeView_poutOk {t : State} (h : s.OnlyPout t) (ht : t.PoutOk) (c : Comp) (blocks : List Mat) :
    (t.writeView m c blocks).PoutOk := by
  rw [State.writeView_eq_fillView]
  exact h.fillView_poutOk hcol hrow ht _ _ fun _ hij => hij

theorem State.writeViews_poutOk (h : s.PoutOk) (p : List Mat × List Mat × List Mat) : (s.writeViews m p).PoutOk := by
  have hluma := s.writeView_only m .luma p.1
  have hcb := hluma.trans (State.writeView_only _ m .cb p.2.1)
  exact hcb.writeView_poutOk hcol hrow (hluma.writeView_poutOk hcol hrow
    ((State.OnlyPout.refl s).writeView_poutOk hcol hrow h _ _) _ _) _ _

theorem State.OnlyPout.spoilView_poutOk {t : State} (h : s.OnlyPout t) (ht : t.PoutOk) (d : Nat) (p : Plane) :
    (t.spoilView d p m).PoutOk := by
  rw [State.spoilView_eq_fillView]
  exact h.fillView_poutOk hcol hrow ht p _ fun _ hij => hij

theorem State.spoilViews_poutOk (h : s.PoutOk) (d : Nat) : (s.spoilViews d m).PoutOk := by
  have hview (t : State) (p : Plane) : t.OnlyPout (t.spoilView d p m) := by
    rw [State.spoilView_eq_fillView]
    exact t.fillView_only ..
  have hy := hview s .y
  have hcb := hy.trans (hview (s.spoilView d .y m) .cb)
  rw [State.spoilViews]
  exact hcb.spoilView_poutOk hcol hrow (hy.spoilView_poutOk hcol hrow
    ((State.OnlyPout.refl s).spoilView_poutOk hcol hrow h d .y) d .cb) d .cr

end

/-! ### The memories after a command -/

theorem State.OnGrid.mby_lt {s : State} (h : s.OnGrid) (hgrid : s.GridOk) : s.mArg / s.gridW.toNat < s.cfg.maxMbh := by
  have hlt := h.mArg_lt
  rw [State.GridOk, if_pos h.1] at hgrid
  exact Nat.lt_of_lt_of_le (Nat.div_lt_of_lt_mul hlt) hgrid.2.2.2

theorem State.PoutOk.congr {s t : State} (h : s.PoutOk) (hcfg : t.cfg = s.cfg) (hpout : ∀ p, t.pout p = s.pout p) :
    t.PoutOk := by
  intro p
  rw [hpout, hcfg]
  exact h p

/-- MbFailure of MB_DECODE keeps the output planes in canonical form. -/
theorem State.spoil_poutOk {s : State} (hgrid : s.GridOk) (hon : s.OnGrid) (hs : s.PoutOk) :
    (s.spoil (mbWrites s.mArg true)).PoutOk := by
  have hspoil : s.spoil (mbWrites s.mArg true) = (s.spoilCore (mbWrites s.mArg true)).spoilViews s.draws s.mArg := rfl
  have hcfg : (s.spoilCore (mbWrites s.mArg true)).cfg = s.cfg := rfl
  have hw : (s.spoilCore (mbWrites s.mArg true)).gridW = s.gridW := rfl
  have hcore : (s.spoilCore (mbWrites s.mArg true)).PoutOk := hs.congr hcfg (s.spoilCore_pout _)
  have hcol := hon.mbx_lt hgrid
  have hrow := hon.mby_lt hgrid
  rw [hspoil]
  generalize s.spoilCore (mbWrites s.mArg true) = t at hcfg hw hcore ⊢
  rw [← hcfg, ← hw] at hcol hrow
  exact State.spoilViews_poutOk hcol hrow hcore s.draws

theorem State.PoutOk.finished {t : State} (h : t.PoutOk) (m : Nat) (r : MbRecord) (rs : List Int) :
    (t.finished m r rs).PoutOk := by
  refine h.congr ?_ fun p => ?_
  · rw [State.finished_eq]
  · rw [State.finished_eq]
    cases p <;> rfl

theorem State.PoutOk.failMb {t : State} (h : t.PoutOk) (e : Err) : (t.failMb e).PoutOk :=
  h.congr rfl fun p => by cases p <;> rfl

/-- Every command keeps the output planes in canonical form. -/
theorem Ended.poutOk {i : Instr} {s u : State} {bs : List Bool} (h : Ended i s u bs) (hgrid : s.GridOk) (hs : s.PoutOk) :
    u.PoutOk := by
  obtain ⟨-, -, -, -, -, hcfg, -⟩ := h.sameHost
  by_cases hi : i = .mbDecode
  · subst hi
    cases h with
    | done h =>
      cases h with
      | @decode r n p hready hlayer hrec hroom =>
        have hviews := State.writeViews_poutOk (s := s.advance n) (m := s.mArg) (hready.1.mbx_lt hgrid)
          (hready.1.mby_lt hgrid) hs p
        exact hviews.finished s.mArg r.coded (mbResults n r.coded)
      | query h | read h | write h | dc _ h => exact absurd h (by decide)
    | clean => exact hs
    | dirty hws => cases hws
    | @failed e pout hmb hon =>
      cases pout with
      | true => exact (State.spoil_poutOk hgrid hon hs).failMb e
      | false => cases hmb
  · exact hs.congr hcfg (h.pout hi)

/-- The bits of a command lie within BSBUF. -/
theorem Ended.bsbuf_memWf {i : Instr} {s u : State} {bs : List Bool} (h : Ended i s u bs) (hcursor : s.CursorOk)
    (hs : memWf s.cfg.bsBytes s.bsbuf = true) : memWf s.cfg.bsBytes (s.stream.put bs).buf = true := by
  refine Stream.putBits_memWf s.stream s.stream.pos bs hs fun k hk => ?_
  obtain ⟨-, hbound⟩ := hcursor
  rcases h.bits_room with rfl | hroom
  · cases hk
  · have hend : s.bsPos.toNat + bs.length ≤ s.bsLen.toNat := hroom
    change s.bsBase.toNat + (s.bsPos.toNat + k) / 8 < _
    omega

theorem State.poutOk_iff {s : State} : s.PoutOk ↔ memWf (planeSize s.cfg .y) s.poutY = true ∧
    memWf (planeSize s.cfg .cb) s.poutCb = true ∧ memWf (planeSize s.cfg .cr) s.poutCr = true :=
  ⟨fun h => ⟨h .y, h .cb, h .cr⟩, fun ⟨hy, hcb, hcr⟩ p => by
    cases p
    · exact hy
    · exact hcb
    · exact hcr⟩

theorem Ended.memOk {i : Instr} {s u : State} {bs : List Bool} (h : Ended i s u bs) (hgrid : s.GridOk)
    (hcursor : s.CursorOk) (hs : s.MemOk) : (s.leaves u bs).MemOk := by
  obtain ⟨hbuf, hpinY, hpinCb, hpinCr, hpout⟩ := hs
  obtain ⟨-, -, hy, hcb, hcr, hcfg, -⟩ := h.sameHost
  have hpout' : (s.leaves u bs).PoutOk :=
    (h.poutOk hgrid (State.poutOk_iff.mpr hpout)).congr rfl fun p => by cases p <;> rfl
  refine ⟨?_, ?_, ?_, ?_, State.poutOk_iff.mp hpout'⟩
  · change memWf u.cfg.bsBytes (s.stream.put bs).buf = true
    rw [hcfg]
    exact h.bsbuf_memWf hcursor hbuf
  · change memWf (planeSize u.cfg .y) u.pinY = true
    rw [hcfg, hy]
    exact hpinY
  · change memWf (planeSize u.cfg .cb) u.pinCb = true
    rw [hcfg, hcb]
    exact hpinCb
  · change memWf (planeSize u.cfg .cr) u.pinCr = true
    rw [hcfg, hcr]
    exact hpinCr

end Sys2Proof.Machine
end

section
/-! PROOFS. A coded record is legal (10 R37; 45 R334): the record that MB_ENCODE leaves. -/

namespace Sys2Proof.Machine

/-! ### Counts -/

/-- The largest TotalCoeff of a block of a component (10 R37). -/
def Comp.maxTc : Comp → Nat
  | .luma => 16
  | _ => 15

/-- Every count of the record is one that its block can have. -/
def MbRecord.CountsLe (r : MbRecord) : Prop := ∀ c : Comp, ∀ b < c.across * c.across, 0 ≤ r.tc c b ∧ r.tc c b ≤ c.maxTc

theorem toNat_le_of_vecInt {n B : Nat} {v : Vector Word n} {k : Nat} (h : 0 ≤ vecInt v k ∧ vecInt v k ≤ B) :
    (v.getD k 0).toNat ≤ B := by
  have hcond := BitVec.toInt_eq_toNat_cond (v.getD k 0)
  have hlt := (v.getD k 0).isLt
  unfold vecInt at h
  split at hcond <;> omega

theorem MbRecord.CountsLe.toNat_le {r : MbRecord} (h : r.CountsLe) : (∀ b < 16, (r.tcy.getD b 0).toNat ≤ 16) ∧
    ∀ c < 2, ∀ b < 4, ((r.tcc.getD c (Vector.replicate 4 0)).getD b 0).toNat ≤ 15 := by
  refine ⟨fun b hb => toNat_le_of_vecInt (h .luma b hb), fun c hc b hb => ?_⟩
  interval_cases c
  · exact toNat_le_of_vecInt (h .cb b hb)
  · exact toNat_le_of_vecInt (h .cr b hb)

theorem MbRecord.countsLe_of_fresh {r : MbRecord} (hy : r.tcy = MbRecord.fresh.tcy) (hc : r.tcc = MbRecord.fresh.tcc) :
    r.CountsLe := by
  intro c b hb
  rw [MbRecord.tc_of_fresh hy hc]
  exact ⟨Int.le_refl 0, Int.natCast_nonneg _⟩

theorem MbRecord.CountsLe.setTc {r : MbRecord} (h : r.CountsLe) {c : Comp} {b n : Nat} (hb : b < c.across * c.across)
    (hn : n ≤ c.maxTc) : (r.setTc c b n).CountsLe := by
  have hmax : c.maxTc ≤ 16 := by cases c <;> decide
  intro c' b' hb'
  rw [MbRecord.tc_setTc r hb (by omega)]
  split
  · next heq =>
    cases heq
    omega
  · exact h c' b' hb'

/-! ### The other fields -/

/-- The legal values of a coded record's fields other than its counts (10 R37; 45 R334). -/
def MbRecord.LegalFields (r : MbRecord) : Prop :=
  (r.stype = 0 ∧ (r.mbType.toNat = 0 ∨ (6 ≤ r.mbType.toNat ∧ r.mbType.toNat ≤ 29)) ∨
    r.stype = 2 ∧ 1 ≤ r.mbType.toNat ∧ r.mbType.toNat ≤ 24) ∧
  (r.intra = false ↔ r.mbType = 0) ∧
  r.qp.toNat ≤ 51 ∧ r.pm.toNat ≤ 3 ∧ r.cpm.toNat ≤ 3 ∧ r.cbp.toNat ≤ 47 ∧
  (r.intra = true → r.mvx = 0 ∧ r.mvy = 0 ∧ r.mvdx = 0 ∧ r.mvdy = 0) ∧
  (r.intra = false → r.pm = 0 ∧ r.cpm = 0)

theorem MbRecord.LegalFields.legal {r : MbRecord} (h : r.LegalFields) (hcounts : r.CountsLe) : r.Legal :=
  have ⟨htype, hintra, hqp, hpm, hcpm, hcbp, hmv, hinter⟩ := h
  ⟨htype, hintra, hqp, hpm, hcpm, hcbp, hmv, hinter, hcounts.toNat_le⟩

/-! ### MB_ENCODE -/

theorem takesDc_of_ne (intra : Bool) {c : Comp} (h : c ≠ .luma) : takesDc intra c = true := by
  cases c with
  | luma => exact absurd rfl h
  | cb | cr => rfl

/-- A block whose DC term is taken out has at most fifteen coefficients that are not 0. -/
theorem nonzero_count_lt {v : Vec16} (h : vecInt v 0 = 0) :
    ((List.range 16).filter fun k => decide (vecInt v k ≠ 0)).length < 16 :=
  List.length_filter_lt_length_iff_exists.mpr ⟨0, by decide, by simpa using h⟩

theorem State.written_countsLe {s : State} {r : MbRecord} (h : r.FormedBy s.encodeArgs) : (s.written r).CountsLe := by
  intro c b hb
  have htc : (s.written r).tc c b = _ := layerItems_tc h c hb
  have hapart := (layerItems_writtenTo s s.encodeArgs r).dcApart h.apart
  rw [htc]
  generalize (layerItems s s.encodeArgs r).2 = q at hapart
  have hle := List.length_filter_le (fun k => decide (vecInt (q.coef c b) k ≠ 0)) (List.range 16)
  rw [List.length_range] at hle
  have hchroma (hc : c ≠ .luma) := nonzero_count_lt (hapart.1 c (takesDc_of_ne q.intra hc) b hb)
  cases c with
  | luma => exact ⟨Int.natCast_nonneg _, by exact_mod_cast hle⟩
  | cb | cr => exact ⟨Int.natCast_nonneg _, by exact_mod_cast Nat.le_of_lt_succ (hchroma nofun)⟩

/-- The mb_type of a formed record (45 R334, R335). -/
theorem MbRecord.FormedBy.mbType_range {r : MbRecord} {a : EncodeArgs} (h : r.FormedBy a) :
    (a.st = 0 ∧ a.intra = false ∧ r.mbType = 0) ∨
      (a.intra = true ∧ 0 ≤ a.pm ∧ a.pm ≤ 3 ∧ (a.st = 0 ∧ 6 ≤ r.mbType.toNat ∧ r.mbType.toNat ≤ 29 ∨
        a.st = 2 ∧ 1 ≤ r.mbType.toNat ∧ r.mbType.toNat ≤ 24)) := by
  have hval := h.type_spec.1
  have htype := h.type
  rw [setType_eq_ok_iff] at htype
  rcases htype with ⟨hst, hintra, ht⟩ | ⟨hst, hintra, hpm0, hpm3, hcbp0, hcbp47, -, ht⟩
  · refine .inl ⟨hst, ?_, BitVec.eq_of_toNat_eq ?_⟩
    · cases ha : a.intra with
      | false => rfl
      | true =>
        rw [ha] at hintra
        exact absurd hintra (by decide)
    · change _ = 0
      omega
  · refine .inr ⟨?_, hpm0, hpm3, ?_⟩
    · cases ha : a.intra with
      | true => rfl
      | false =>
        rw [ha] at hintra
        exact absurd hintra (by decide)
    · split at ht <;> split at ht <;> omega

theorem State.written_legalFields {s : State} {r : MbRecord} (hready : s.EncodeReady) (h : r.FormedBy s.encodeArgs)
    (hpred : 0 ≤ s.qpPred s.mArg (s.getArg 1) (s.argInt 9) ∧ s.qpPred s.mArg (s.getArg 1) (s.argInt 9) ≤ 51) :
    (s.written r).LegalFields := by
  have hfields := State.written_fields h
  have hlegal := hready.legal
  have hstype : (s.written r).stype = toWord s.encodeArgs.st := (congrArg MbRecord.stype hfields).trans rfl
  have htype : (s.written r).mbType = r.mbType := (congrArg MbRecord.mbType hfields).trans rfl
  have hintra : (s.written r).intra = s.encodeArgs.intra := (congrArg MbRecord.intra hfields).trans rfl
  have hqp : (s.written r).qp.toNat ≤ 51 := layerItems_qp_le hlegal hpred h.intra
  have hcbp : (s.written r).cbp.toNat ≤ 47 := by
    rw [State.written_cbp h, h.cbp_toNat]
    exact (codedBlockPattern_parts r).1
  obtain ⟨hpm, hcpm, hmvx, hmvy⟩ := State.written_prediction h
  obtain ⟨hdx, hdy⟩ := State.written_mvd h
  unfold MbRecord.LegalFields
  rw [hstype, htype, hintra]
  rcases h.mbType_range with ⟨hst, ha, ht⟩ | ⟨ha, hpm0, hpm3, hrange⟩
  · obtain ⟨hpm', hcpm', -⟩ := encodeRecord_of_inter ha
    rw [hst, ha, ht, hpm, hcpm, hpm', hcpm']
    exact ⟨.inl ⟨rfl, .inl rfl⟩, ⟨fun _ => rfl, fun _ => rfl⟩, hqp, by decide, by decide, hcbp, nofun,
      fun _ => ⟨rfl, rfl⟩⟩
  · obtain ⟨hpm', hcpm', hmvx', hmvy'⟩ := encodeRecord_of_intra ha
    rw [predictionItems_mvd_of_intra ha] at hdx hdy
    rw [ha, hpm, hcpm, hpm', hcpm', hmvx, hmvy, hmvx', hmvy', hdx, hdy]
    refine ⟨?_, ⟨nofun, fun hzero => ?_⟩, hqp, toNat_toWord_le ⟨hpm0, hpm3⟩ (by decide),
      toNat_toWord_le (hlegal.cpm ha) (by decide), hcbp, fun _ => ⟨rfl, rfl, ?_, ?_⟩, nofun⟩
    · rcases hrange with ⟨hst, hrange⟩ | ⟨hst, hrange⟩
      · rw [hst]
        exact .inl ⟨rfl, .inr hrange⟩
      · rw [hst]
        exact .inr ⟨rfl, hrange⟩
    · have hzero' : r.mbType.toNat = 0 := congrArg BitVec.toNat hzero
      omega
    · exact (congrArg MbRecord.mvdx h.fields).trans rfl
    · exact (congrArg MbRecord.mvdy h.fields).trans rfl

end Sys2Proof.Machine
end

section
/-! PROOFS. A coded record is legal (10 R37; 45 R334): the record that MB_DECODE leaves. -/

namespace Sys2Proof.Machine

/-! ### What the elements read can be -/

theorem cavlcDecode_tc_le {maxN : Nat} {nc : Int} {st st' : Stream} {d : Decoded}
    (h : cavlcDecode maxN nc st = .ok (d, st')) : d.tc ≤ maxN := by
  have hraw := codecStep_eq_ok_iff.mp h
  rw [cavlcDecodeRaw_eq] at hraw
  obtain ⟨p, hp, hd⟩ := except_bind_eq_ok_iff.mp hraw
  obtain ⟨c, -, hp⟩ := except_bind_eq_ok_iff.mp hp
  obtain ⟨w, -, hp⟩ := except_bind_eq_ok_iff.mp hp
  obtain ⟨q, hq, hp⟩ := except_bind_eq_ok_iff.mp hp
  obtain ⟨_, hle, -⟩ := except_bind_eq_ok_iff.mp hq
  cases hp
  cases hd
  exact of_decide_eq_true ((require_ok ..).mp hle)

theorem cbpDecode_le {st st' : Stream} {k : Nat} (h : cbpDecode false st = .ok (k, st')) : k ≤ 47 := by
  have htab : ∀ k ≤ 47, cbpTab false k ≤ 47 := by decide
  obtain ⟨p, -, h⟩ := except_bind_eq_ok_iff.mp h
  obtain ⟨_, hle, h⟩ := except_bind_eq_ok_iff.mp h
  cases h
  exact htab _ (of_decide_eq_true ((require_ok ..).mp hle))

theorem decodeQp_bounds {pred qp : Int} {st st' : Stream} (h : decodeQp pred st = .ok (qp, st')) : 0 ≤ qp ∧ qp ≤ 51 := by
  obtain ⟨p, -, h⟩ := except_bind_eq_ok_iff.mp h
  obtain ⟨-, -, h⟩ := except_bind_eq_ok_iff.mp h
  cases h
  omega

/-- What an mb_type that is in scope says (45 R336). -/
theorem unpackMbType_eq_ok {st : Int} {t : Nat} {u : Int × Int × Int} (h : unpackMbType st t = .ok u) :
    (st = 0 ∧ t = 0 ∧ u = (0, 0, -1)) ∨ (u.1 = 1 ∧ 0 ≤ u.2.1 ∧ u.2.1 ≤ 3 ∧ 0 ≤ u.2.2 ∧ u.2.2 ≤ 47 ∧
      (st = 0 ∧ 6 ≤ t ∧ t ≤ 29 ∨ st = 2 ∧ 1 ≤ t ∧ t ≤ 24)) := by
  by_cases hinter : st = 0 ∧ t = 0
  · obtain ⟨rfl, rfl⟩ := hinter
    exact .inl ⟨rfl, rfl, (Except.ok.inj h).symm⟩
  · have hst : st = 0 ∨ st = 2 := by
      by_contra hst
      rw [unpackMbType_eq, if_pos hst] at h
      cases h
    rw [unpackMbType_eq_unpackPlace hst (Int.natCast_nonneg t) (by omega), unpackPlace] at h
    generalize hplace : (if st = 0 then (t : Int) - 6 else t - 1) = v at h
    split_ifs at h
    all_goals
      cases h
      right
      dsimp only
      split_ifs at hplace <;> omega

/-! ### The prediction elements -/

theorem MbRecord.legalFields_withIntra {a : DecodeArgs} {t : Nat} {pm cbp : Int} {cpm : Nat} {qp : Word}
    (hpm : 0 ≤ pm ∧ pm ≤ 3) (hcpm : cpm ≤ 3) (hcbp : 0 ≤ cbp ∧ cbp ≤ 47) (hqp : qp.toNat ≤ 51)
    (ht : a.st = 0 ∧ 6 ≤ t ∧ t ≤ 29 ∨ a.st = 2 ∧ 1 ≤ t ∧ t ≤ 24) :
    { (typedRecord a t).withIntra pm cbp cpm with qp := qp }.LegalFields := by
  have htype : (toWord t).toNat = t := toNat_toWord_of_lt (by omega)
  refine ⟨?_, ⟨nofun, fun hzero => ?_⟩, hqp, toNat_toWord_le hpm (by decide),
    toNat_toWord_le ⟨Int.natCast_nonneg cpm, by exact_mod_cast hcpm⟩ (by decide), toNat_toWord_le hcbp (by decide),
    fun _ => ⟨rfl, rfl, rfl, rfl⟩, nofun⟩
  · change (toWord a.st = 0 ∧ ((toWord t).toNat = 0 ∨ _ ≤ (toWord t).toNat ∧ (toWord t).toNat ≤ _)) ∨
      (toWord a.st = 2 ∧ _ ≤ (toWord t).toNat ∧ (toWord t).toNat ≤ _)
    rw [htype]
    rcases ht with ⟨hst, ht⟩ | ⟨hst, ht⟩
    · rw [hst]
      exact .inl ⟨rfl, .inr ht⟩
    · rw [hst]
      exact .inr ⟨rfl, ht⟩
  · have hzero' : (toWord t).toNat = 0 := congrArg BitVec.toNat hzero
    omega

theorem MbRecord.legalFields_withInter {a : DecodeArgs} {d v : Int × Int} {cbp : Nat} {qp : Word} (hcbp : cbp ≤ 47)
    (hqp : qp.toNat ≤ 51) (hst : a.st = 0) : { (typedRecord a 0).withInter d v cbp with qp := qp }.LegalFields := by
  have hstype : toWord a.st = 0 := by
    rw [hst]
    rfl
  exact ⟨.inl ⟨hstype, .inl rfl⟩, ⟨fun _ => rfl, fun _ => rfl⟩, hqp, Nat.zero_le _, Nat.zero_le _,
    toNat_toWord_le ⟨Int.natCast_nonneg cbp, by exact_mod_cast hcbp⟩ (by decide), nofun, fun _ => ⟨rfl, rfl⟩⟩

/-- A record whose prediction fields have been read is legal with any QP, and has no counts yet. -/
theorem decodePrediction_legal {s : State} {a : DecodeArgs} {t : Nat} {u : Int × Int × Int}
    (hu : unpackMbType a.st t = .ok u) {r : MbRecord} {st st' : Stream}
    (h : decodePrediction s a (decide (u.1 = 1)) u.2.1 u.2.2 (typedRecord a t) st = .ok (r, st')) :
    (∀ qp : Word, qp.toNat ≤ 51 → { r with qp := qp }.LegalFields) ∧ r.CountsLe := by
  rw [decodePrediction_eq] at h
  rcases unpackMbType_eq_ok hu with ⟨hst, rfl, rfl⟩ | ⟨hintra, hpm0, hpm3, hcbp0, hcbp47, ht⟩
  · obtain ⟨p, -, h⟩ := except_bind_eq_ok_iff.mp h
    obtain ⟨q, -, h⟩ := except_bind_eq_ok_iff.mp h
    obtain ⟨v, -, h⟩ := except_bind_eq_ok_iff.mp h
    obtain ⟨k, hk, h⟩ := except_bind_eq_ok_iff.mp h
    cases h
    exact ⟨fun qp hqp => MbRecord.legalFields_withInter (cbpDecode_le hk) hqp hst, MbRecord.countsLe_of_fresh rfl rfl⟩
  · rw [if_pos (decide_eq_true hintra)] at h
    obtain ⟨p, -, h⟩ := except_bind_eq_ok_iff.mp h
    obtain ⟨_, hle, h⟩ := except_bind_eq_ok_iff.mp h
    cases h
    exact ⟨fun qp hqp => MbRecord.legalFields_withIntra ⟨hpm0, hpm3⟩ (of_decide_eq_true ((require_ok ..).mp hle))
      ⟨hcbp0, hcbp47⟩ hqp ht, MbRecord.countsLe_of_fresh rfl rfl⟩

/-! ### The residual -/

/-- `q` is `r` but for its blocks and counts. -/
def MbRecord.SameHeader (r q : MbRecord) : Prop :=
  q = { r with tcy := q.tcy, tcc := q.tcc, coefY := q.coefY, dcY := q.dcY, coefC := q.coefC, dcC := q.dcC }

theorem MbRecord.SameHeader.trans {r q p : MbRecord} (h : r.SameHeader q) (h' : q.SameHeader p) : r.SameHeader p := by
  unfold MbRecord.SameHeader at *
  rw [h', h]

theorem MbRecord.SameHeader.legalFields {r q : MbRecord} (h : r.SameHeader q) (hr : r.LegalFields) : q.LegalFields := by
  rw [h]
  exact hr

theorem MbRecord.sameHeader_setBlock (r : MbRecord) (c : Comp) (b n : Nat) (v : Vec16) :
    r.SameHeader ((r.setCoef c b v).setTc c b n) := by
  cases c <;> rfl

theorem blockSkip_maxTc (intra : Bool) (c : Comp) : 16 - blockSkip intra c ≤ c.maxTc := by
  cases c with
  | luma => exact Nat.sub_le ..
  | cb | cr => exact Nat.le_refl 15

theorem decodeBlocks_legal {s : State} {m : Nat} {l : List (Comp × Nat)} (hl : ValidBlocks l) {r q : MbRecord}
    {st st' : Stream} (hr : r.CountsLe) (h : decodeBlocks s m l r st = .ok (q, st')) : r.SameHeader q ∧ q.CountsLe := by
  induction l generalizing r st with
  | nil =>
    cases h
    exact ⟨rfl, hr⟩
  | cons cb rest ih =>
    obtain ⟨c, b⟩ := cb
    obtain ⟨hb, hrest⟩ := List.forall_mem_cons.mp hl
    rw [decodeBlocks_cons] at h
    obtain ⟨⟨d, st₁⟩, hd, h⟩ := except_bind_eq_ok_iff.mp h
    have htc := (cavlcDecode_tc_le hd).trans (blockSkip_maxTc r.intra c)
    have hcoef : (r.setCoef c b (unscan d.coeffs (blockSkip r.intra c))).CountsLe := fun c' b' hb' => by
      rw [MbRecord.tc_setCoef]
      exact hr c' b' hb'
    obtain ⟨hsame, hq⟩ := ih hrest (hcoef.setTc hb htc) h
    exact ⟨(r.sameHeader_setBlock c b _ _).trans hsame, hq⟩

theorem decodeChromaDc_legal {l : List Comp} {r q : MbRecord} {st st' : Stream} (hr : r.CountsLe)
    (h : decodeChromaDc l r st = .ok (q, st')) : r.SameHeader q ∧ q.CountsLe := by
  induction l generalizing r st with
  | nil =>
    cases h
    exact ⟨rfl, hr⟩
  | cons c rest ih =>
    rw [decodeChromaDc_cons] at h
    obtain ⟨⟨d, st₁⟩, -, h⟩ := except_bind_eq_ok_iff.mp h
    obtain ⟨hsame, hq⟩ := ih (r := r.setDcc c _) hr h
    exact ⟨MbRecord.SameHeader.trans (q := r.setDcc c _) rfl hsame, hq⟩

theorem decodeLumaDc_legal {s : State} {m : Nat} {r q : MbRecord} {st st' : Stream} (hr : r.CountsLe)
    (h : decodeLumaDc s m r st = .ok (q, st')) : r.SameHeader q ∧ q.CountsLe := by
  unfold decodeLumaDc at h
  split at h
  · obtain ⟨p, -, h⟩ := except_bind_eq_ok_iff.mp h
    cases h
    exact ⟨rfl, hr⟩
  · cases h
    exact ⟨rfl, hr⟩

theorem decodeMbResidual_legal {s : State} {m cl cc : Nat} {r q : MbRecord} {st st' : Stream} (hr : r.CountsLe)
    (h : decodeMbResidual s m cl cc r st = .ok (q, st')) : r.SameHeader q ∧ q.CountsLe := by
  obtain ⟨⟨r₁, st₁⟩, h₁, h⟩ := except_bind_eq_ok_iff.mp h
  obtain ⟨⟨r₂, st₂⟩, h₂, h⟩ := except_bind_eq_ok_iff.mp h
  obtain ⟨⟨r₃, st₃⟩, h₃, h₄⟩ := except_bind_eq_ok_iff.mp h
  obtain ⟨hsame₁, hr₁⟩ := decodeLumaDc_legal hr h₁
  obtain ⟨hsame₂, hr₂⟩ := decodeBlocks_legal (validBlocks_codedLuma cl) hr₁ h₂
  obtain ⟨hsame₃, hr₃⟩ := decodeChromaDc_legal hr₂ h₃
  obtain ⟨hsame₄, hq⟩ := decodeBlocks_legal (validBlocks_codedChromaAc cc) hr₃ h₄
  exact ⟨((hsame₁.trans hsame₂).trans hsame₃).trans hsame₄, hq⟩

/-! ### The macroblock_layer -/

/-- The record that a macroblock_layer is decoded to is legal. -/
theorem decodeLayer_legal {s : State} {a : DecodeArgs}
    (hpred : 0 ≤ s.qpPred a.m a.slice a.sliceQp ∧ s.qpPred a.m a.slice a.sliceQp ≤ 51) {r : MbRecord} {st st' : Stream}
    (h : decodeLayer s a st = .ok (r, st')) : r.LegalFields ∧ r.CountsLe := by
  rw [decodeLayer_eq] at h
  obtain ⟨⟨t, st₁⟩, -, h⟩ := except_bind_eq_ok_iff.mp h
  obtain ⟨u, hu, h⟩ := except_bind_eq_ok_iff.mp h
  obtain ⟨⟨q, st₂⟩, hq, h⟩ := except_bind_eq_ok_iff.mp h
  obtain ⟨hfields, hcounts⟩ := decodePrediction_legal hu hq
  dsimp only [decodeTail] at h
  split at h
  · obtain ⟨⟨qp, st₃⟩, hqp, h⟩ := except_bind_eq_ok_iff.mp h
    obtain ⟨hsame, hr⟩ := decodeMbResidual_legal (r := { q with qp := toWord qp }) hcounts h
    exact ⟨hsame.legalFields (hfields _ (toNat_toWord_le (decodeQp_bounds hqp) (by decide))), hr⟩
  · cases h
    exact ⟨hfields _ (toNat_toWord_le hpred (by decide)), hcounts⟩

end Sys2Proof.Machine
end

section
/-! PROOFS. Every command keeps the invariant of the machine (10 R22, R23, R26, R28, R34 to R37). -/

namespace Sys2Proof.Machine

/-! ### STATUS and ERRACC -/

theorem statusOk_of_codes : ∀ e < 12, ∀ c < 12, (c ≠ 0 ↔ e = 9) → statusOk (BitVec.ofNat 32 (e + 256 * c)) := by
  decide

theorem errAccOk_bit : ∀ e < 12, e ≠ 0 → errAccOk (BitVec.ofNat 32 (2 ^ e)) := by decide

theorem errAccOk.or {v w : Word} (hv : errAccOk v) (hw : errAccOk w) : errAccOk (v ||| w) := by
  have hdist : (v ||| w) &&& 0xFFFFF001#32 = (v &&& 0xFFFFF001#32) ||| (w &&& 0xFFFFF001#32) := by
    ext k
    simp [Bool.and_or_distrib_right]
  rw [errAccOk, hdist, hv, hw]
  rfl

theorem Ended.statusOk {i : Instr} {s u : State} {bs : List Bool} (h : Ended i s u bs) : statusOk u.status := by
  obtain ⟨e, c, he, hc, hcause, hstatus, -⟩ := h.endsWith
  rw [hstatus]
  exact statusOk_of_codes e (by omega) c (by omega) hcause

theorem Ended.errAccOk {i : Instr} {s u : State} {bs : List Bool} (h : Ended i s u bs) (hs : errAccOk s.errAcc) :
    errAccOk u.errAcc := by
  obtain ⟨e, c, he, -, -, -, hacc⟩ := h.endsWith
  have hbefore : Machine.errAccOk (accBefore i s) := by
    unfold accBefore
    split
    · decide
    · exact hs
  rw [hacc]
  split
  · exact hbefore
  · next hne => exact hbefore.or (errAccOk_bit e (by omega) hne)

/-! ### The stream cursor (10 R26) -/

section
variable {i : Instr} {s u : State} {bs : List Bool}

theorem State.CursorOk.advance (h : s.CursorOk) {n : Nat} (hroom : s.Room n) : (s.advance n).CursorOk := by
  refine ⟨?_, h.2⟩
  change (BitVec.ofNat 32 (s.bsPos.toNat + n)).toNat ≤ s.bsLen.toNat
  rw [hroom.toNat_ofNat]
  exact hroom

theorem State.CursorOk.congr {t : State} (h : s.CursorOk) (hpos : t.bsPos = s.bsPos) (hlen : t.bsLen = s.bsLen)
    (hbase : t.bsBase = s.bsBase) (hcfg : t.cfg = s.cfg) : t.CursorOk := by
  unfold State.CursorOk
  rw [hpos, hlen, hbase, hcfg]
  exact h

theorem State.CursorOk.setResList (h : s.CursorOk) (j : Nat) (rs : List Int) : (s.setResList j rs).CursorOk :=
  h.congr (State.setResList_bsPos ..) (State.setResList_bsLen ..) (State.setResList_bsBase ..) (State.setResList_cfg ..)

theorem State.bindStream_cursorOk (h : bindCheck s = .ok ()) : s.bindStream.CursorOk := by
  rw [bindCheck_eq] at h
  split at h
  · next hbind =>
    obtain ⟨hlen, hbase, hle⟩ := hbind
    have hlen' := State.getArg_toNat_of_nonneg hlen
    have hbase' := State.getArg_toNat_of_nonneg hbase
    refine ⟨Nat.zero_le _, ?_⟩
    change 8 * (s.getArg 1).toNat + (s.getArg 0).toNat ≤ 8 * s.cfg.bsBytes
    omega
  · cases h

theorem Effect.cursorOk (h : Effect s i u bs) (hs : s.CursorOk) : u.CursorOk := by
  cases h with
  | nop | clrerr | inv4 | grid => exact hs
  | bind hbind => exact State.bindStream_cursorOk hbind
  | rewind => exact ⟨Nat.zero_le _, hs.2⟩
  | query => exact hs.setResList _ _
  | read _ _ hroom | write _ _ hroom => exact (hs.advance hroom).setResList _ _
  | block4 _ _ hroom | block2 _ _ hroom | encode _ _ _ hroom =>
    refine State.CursorOk.setResList ?_ _ _
    exact hs.advance hroom
  | fwd4 | dc =>
    refine State.CursorOk.setResList ?_ _ _
    exact hs
  | @decode r n p _ _ _ hroom =>
    have hviews : ((s.advance n).writeViews s.mArg p).CursorOk := (hs.advance hroom).congr (State.writeViews_bsPos ..)
      (State.writeViews_bsLen ..) (State.writeViews_bsBase ..) (State.writeViews_cfg ..)
    generalize (s.advance n).writeViews s.mArg p = t at hviews
    refine State.CursorOk.setResList ?_ _ _
    exact hviews

theorem State.spoil_cursorOk (hs : s.CursorOk) (ws : WriteSet) : (s.spoil ws).CursorOk := by
  refine ⟨?_, ?_⟩
  · rw [State.spoil_bsLen]
    exact (s.spoil_bsPos_toNat ws hs.1).2
  · rw [State.spoil_bsBase, State.spoil_bsLen, State.spoil_cfg]
    exact hs.2

theorem Ended.cursorOk (h : Ended i s u bs) (hs : s.CursorOk) : u.CursorOk := by
  cases h with
  | done h => exact h.cursorOk hs
  | clean => exact hs
  | dirty => exact State.spoil_cursorOk hs _
  | failed => exact State.spoil_cursorOk hs _

/-! ### The grid (10 R28) -/

theorem State.initGrid_gridOk (hw : 1 ≤ s.argInt 0 ∧ s.argInt 0 ≤ s.cfg.maxMbw)
    (hh : 1 ≤ s.argInt 1 ∧ s.argInt 1 ≤ s.cfg.maxMbh) : s.initGrid.GridOk := by
  have hw' := State.getArg_toNat_of_nonneg (s := s) (i := 0) (by omega)
  have hh' := State.getArg_toNat_of_nonneg (s := s) (i := 1) (by omega)
  change 1 ≤ (s.getArg 0).toNat ∧ (s.getArg 0).toNat ≤ s.cfg.maxMbw ∧ 1 ≤ (s.getArg 1).toNat ∧
    (s.getArg 1).toNat ≤ s.cfg.maxMbh
  omega

theorem Ended.gridOk (h : Ended i s u bs) (hs : s.GridOk) : u.GridOk := by
  obtain ⟨-, -, -, -, -, hcfg, -⟩ := h.sameHost
  by_cases hi : i = .mbInit
  · subst hi
    cases h with
    | done h =>
      cases h with
      | grid hw hh => exact State.initGrid_gridOk hw hh
      | query h | read h | write h | dc _ h => exact absurd h (by decide)
    | clean => exact hs
    | dirty hws => cases hws
    | failed hmb => exact absurd (mbInstr_mem hmb) (by decide)
  · obtain ⟨hw, hh, hvalid⟩ := h.grid_eq hi
    unfold State.GridOk
    rw [hw, hh, hvalid, hcfg]
    exact hs

/-! ### The record store (10 R37) -/

/-- The record store has its length, and its coded records are legal. -/
def MbsOk (n : Nat) (mbs : List MbRecord) : Prop := mbs.length = n ∧ ∀ r ∈ mbs, r.done = true → r.Legal

theorem MbsOk.set {n : Nat} {mbs : List MbRecord} (h : MbsOk n mbs) (m : Nat) {r : MbRecord}
    (hr : r.done = true → r.Legal) : MbsOk n (mbs.set m r) := by
  refine ⟨by rw [List.length_set, h.1], fun q hq => ?_⟩
  rcases List.mem_or_eq_of_mem_set hq with hq | rfl
  · exact h.2 q hq
  · exact hr

theorem State.initGrid_mbsOk {n : Nat} (h : MbsOk n s.mbs) : MbsOk n s.initGrid.mbs := by
  refine ⟨by rw [State.initGrid_mbs_length, h.1], fun r hr => ?_⟩
  rw [State.initGrid_mbs] at hr
  rcases List.mem_append.mp hr with hr | hr
  · rw [List.eq_of_mem_replicate hr]
    nofun
  · exact h.2 r (List.mem_of_mem_drop hr)

/-- The commands that Effect groups write no record. -/
theorem groupedInstr_disjoint : ∀ j ∈ queryInstrs ++ readInstrs ++ writeInstrs ++ dcInstrs,
    j ∉ [Instr.mbInit, .mbEncode, .mbDecode] := by decide

theorem Effect.mbsOk (h : Effect s i u bs) {n : Nat} (hs : MbsOk n s.mbs) : MbsOk n u.mbs := by
  by_cases hi : i ∉ [Instr.mbInit, .mbEncode, .mbDecode]
  · rw [h.mbs hi]
    exact hs
  · cases h with
    | grid => exact State.initGrid_mbsOk hs
    | @encode r bs hready hforms hbits hroom =>
      rw [State.setResList_mbs]
      refine hs.set s.mArg fun _ => ?_
      have hpred := State.qpPred_bounds hs.2 hready.2.2.2 (s.getArg 1) hready.decodeReady.2.2.1
      exact (State.written_legalFields hready hforms.formedBy hpred).legal (State.written_countsLe hforms.formedBy)
    | @decode r n p hready hlayer hrec hroom =>
      rw [State.setResList_mbs, State.setRecord_mbs, State.writeViews_mbs]
      refine hs.set s.mArg fun _ => ?_
      have hpred := State.qpPred_bounds hs.2 hready.2.2.2 (s.getArg 1) hready.2.2.1
      obtain ⟨hfields, hcounts⟩ := decodeLayer_legal (a := s.decodeArgs) hpred hlayer
      exact MbRecord.LegalFields.legal (r := r.coded) hfields hcounts
    | query hq | read hq | write hq | dc _ hq => exact absurd (groupedInstr_disjoint i (by simp [hq])) hi
    | _ => exact absurd (by decide) hi

theorem Ended.mbsOk (h : Ended i s u bs) {n : Nat} (hs : MbsOk n s.mbs) : MbsOk n u.mbs := by
  cases h with
  | done h => exact h.mbsOk hs
  | clean => exact hs
  | dirty hws =>
    obtain ⟨hmb, -⟩ := dirtyWrites_spec hws
    rw [State.fail, State.endCommand_mbs, State.spoil_mbs, hmb]
    exact hs
  | @failed e pout =>
    have hmbs : ((s.spoil (mbWrites s.mArg pout)).failMb e).mbs = s.mbs.set s.mArg (freeRecord s.draws) :=
      s.spoil_mbs (mbWrites s.mArg pout)
    rw [hmbs]
    exact hs.set _ nofun

end

/-! ### Every step -/

/-- Every command keeps the invariant. -/
theorem exec_inv {i : Instr} {s t : State} (hs : s.Inv) (hexec : exec i s = .next t) : t.Inv := by
  obtain ⟨u, bs, h, rfl⟩ := ended_of_exec hexec
  obtain ⟨-, -, -, -, -, hcfg, -⟩ := h.sameHost
  have hmbs : MbsOk (s.cfg.maxMbw * s.cfg.maxMbh) u.mbs := h.mbsOk ⟨hs.store, hs.records⟩
  rw [← hcfg] at hmbs
  refine ⟨?_, h.cursorOk hs.cursor, h.memOk hs.grid hs.cursor hs.mem, h.gridOk hs.grid, hmbs.1, h.statusOk,
    h.errAccOk hs.errAcc, hmbs.2⟩
  change u.cfg.wf = true
  rw [hcfg]
  exact hs.params

end Sys2Proof.Machine
end

section
/-! PROOFS. Every step keeps the invariant of the machine: what the host's accesses do (20 R79, R83; 70 R440). -/

namespace Sys2Proof.Machine

/-- Two states that the invariant does not tell apart (10 R22 to R37). -/
def State.SameCore (s t : State) : Prop :=
  t.cfg = s.cfg ∧ t.bsPos = s.bsPos ∧ t.bsLen = s.bsLen ∧ t.bsBase = s.bsBase ∧ t.gridW = s.gridW ∧ t.gridH = s.gridH ∧
    t.gridValid = s.gridValid ∧ t.mbs = s.mbs ∧ t.status = s.status ∧ t.errAcc = s.errAcc

theorem State.Inv.of_sameCore {s t : State} (hs : s.Inv) (h : s.SameCore t) (hmem : t.MemOk) : t.Inv := by
  obtain ⟨hcfg, hpos, hlen, hbase, hw, hh, hvalid, hmbs, hstatus, hacc⟩ := h
  refine ⟨?_, hs.cursor.congr hpos hlen hbase hcfg, hmem, ?_, ?_, ?_, ?_, ?_⟩
  · rw [hcfg]
    exact hs.params
  · unfold State.GridOk
    rw [hw, hh, hvalid, hcfg]
    exact hs.grid
  · unfold State.StoreOk
    rw [hmbs, hcfg]
    exact hs.store
  · rw [hstatus]
    exact hs.status
  · rw [hacc]
    exact hs.errAcc
  · unfold State.RecordsOk
    rw [hmbs]
    exact hs.records

/-! ### Host writes -/

theorem State.hostStore_sameCore (s : State) (l : Loc) (v : Word) : s.SameCore (s.hostStore l v) := by
  cases l with
  | pin p row col | pout p row col => cases p <;> exact ⟨rfl, rfl, rfl, rfl, rfl, rfl, rfl, rfl, rfl, rfl⟩
  | _ => exact ⟨rfl, rfl, rfl, rfl, rfl, rfl, rfl, rfl, rfl, rfl⟩

theorem State.writePin_memOk {s : State} (h : s.MemOk) {p : Plane} {row col : Nat}
    (hin : inPlane s.cfg p row col = true) (v : Word) : (s.writePin p row col v).MemOk := by
  obtain ⟨hbuf, hy, hcb, hcr, hpout⟩ := h
  simp only [inPlane, Bool.and_eq_true, decide_eq_true_eq] at hin
  have hindex := planeIndex_lt hin.1 hin.2
  cases p with
  | y => exact ⟨hbuf, memWf_memWrite v hy hindex, hcb, hcr, hpout⟩
  | cb => exact ⟨hbuf, hy, memWf_memWrite v hcb hindex, hcr, hpout⟩
  | cr => exact ⟨hbuf, hy, hcb, memWf_memWrite v hcr hindex, hpout⟩

theorem State.writePout_memOk {s : State} (h : s.MemOk) {p : Plane} {row col : Nat}
    (hin : inPlane s.cfg p row col = true) (v : Word) : (s.writePout p row col v).MemOk := by
  obtain ⟨hbuf, hy, hcb, hcr, hpout⟩ := h
  simp only [inPlane, Bool.and_eq_true, decide_eq_true_eq] at hin
  have hpout' := State.poutOk_iff.mp ((State.poutOk_iff.mpr hpout).writePout hin.1 hin.2 v)
  cases p with
  | y | cb | cr => exact ⟨hbuf, hy, hcb, hcr, hpout'⟩

/-- A write of the host to a location that exists keeps the memories in canonical form. -/
theorem State.hostStore_memOk {s : State} (h : s.MemOk) {l : Loc} {w : Word} (hread : s.hostRead l = some w) (v : Word) :
    (s.hostStore l v).MemOk := by
  cases l with
  | bsbuf a =>
    have ha : a < s.cfg.bsBytes := by
      by_contra ha
      exact absurd ((if_neg ha).symm.trans hread) nofun
    exact ⟨memWf_memWrite _ h.1 ha, h.2⟩
  | pin p row col =>
    refine State.writePin_memOk h ?_ v
    by_contra hin
    exact absurd ((if_neg hin).symm.trans hread) nofun
  | pout p row col =>
    refine State.writePout_memOk h ?_ v
    by_contra hin
    exact absurd ((if_neg hin).symm.trans hread) nofun
  | _ => exact h

/-! ### Steps -/

theorem State.Inv.with_cmd {s : State} (hs : s.Inv) (w : Word) : { s with cmd := w }.Inv :=
  ⟨hs.params, hs.cursor, hs.mem, hs.grid, hs.store, hs.status, hs.errAcc, hs.records⟩

/-- A command word that is issued keeps the invariant, whether it names a command or not. -/
theorem issue_inv {w : Word} {s t : State} (hs : s.Inv) (h : issue w s = .next t) : t.Inv := by
  cases hdecode : decode w with
  | ok i =>
    rw [issue_of_decode_ok hdecode] at h
    exact exec_inv (hs.with_cmd w) h
  | error r =>
    have hissue : issue w s = .next ({ s with cmd := w }.fail .illegalCommand) := by rw [issue, hdecode]
    rw [hissue] at h
    cases h
    exact ⟨hs.params, hs.cursor, hs.mem, hs.grid, hs.store,
      statusOk_of_codes Err.illegalCommand.code (by decide) 0 (by decide) (by decide), hs.errAcc.or (by decide), hs.records⟩

theorem access_inv {a : HostAccess} {s t : State} (hs : s.Inv) (h : access a s = .next t) : t.Inv := by
  cases hshape : a.wellFormed with
  | false =>
    rw [access_of_not_wellFormed hshape] at h
    cases h
  | true =>
    cases a with
    | read l size =>
      obtain rfl : size = l.size := by simpa [HostAccess.wellFormed] using hshape
      rw [access_read] at h
      cases hread : s.hostRead l with
      | none =>
        rw [hread] at h
        cases h
      | some v =>
        rw [hread] at h
        cases h
        exact ⟨hs.params, hs.cursor, hs.mem, hs.grid, hs.store, hs.status, hs.errAcc, hs.records⟩
    | write l size v =>
      obtain rfl : size = l.size := by simpa [HostAccess.wellFormed] using hshape
      rw [access_write] at h
      cases hread : s.hostRead l with
      | none =>
        rw [hread] at h
        cases h
      | some w =>
        rw [hread] at h
        dsimp only at h
        split at h
        · exact issue_inv hs h
        · cases h
          exact hs.of_sameCore (s.hostStore_sameCore l v) (State.hostStore_memOk hs.mem hread v)
    | reset =>
      have hreset := State.resetOf_inv hs.params
      cases h
      exact ⟨hreset.params, hreset.cursor, hreset.mem, hreset.grid, hreset.store, hreset.status, hreset.errAcc,
        hreset.records⟩

/-- Settles O56, by the access that the step takes: every command, host write and reset keeps the invariant. -/
theorem stepKeepsInv : Obligations.StepKeepsInv := by
  intro s t hs h
  cases hpending : s.pending with
  | nil =>
    rw [step, hpending] at h
    cases h
    exact hs
  | cons a rest =>
    rw [step_of_pending hpending] at h
    exact access_inv (s := { s with pending := rest })
      ⟨hs.params, hs.cursor, hs.mem, hs.grid, hs.store, hs.status, hs.errAcc, hs.records⟩ h

end Sys2Proof.Machine
end

section
/-! PROOFS. MbFailure: what it leaves, and its causes in the stream and in what MB_DECODE reads first (45 R339; 60 R408). -/

namespace Sys2Proof.Machine

/-! ### What MbFailure leaves -/

/-- A command that ends with MbFailure is a macroblock command past its check phase. -/
theorem exec_mbFailure {i : Instr} {s t : State} (hexec : exec i s = .next t) (h9 : statusErr t.status = 9) :
    ∃ e pout, (i = if pout then .mbDecode else .mbEncode) ∧ s.OnGrid ∧
      t = s.leaves ((s.spoil (mbWrites s.mArg pout)).failMb e) (s.spoilBits (mbWrites s.mArg pout)) := by
  obtain ⟨u, bs, hend, rfl⟩ := ended_of_exec hexec
  cases hend with
  | @done v _ h => exact absurd ((statusErr_succeed v).symm.trans h9) (by decide)
  | @clean e hi he => exact absurd ((statusErr_fail s e).symm.trans h9) he.code_ne
  | @dirty e ws hws he hroom => exact absurd ((statusErr_fail (s.spoil ws) e).symm.trans h9) he.plain.code_ne
  | @failed e pout hi hgrid => exact ⟨e, pout, hi, hgrid, rfl⟩

/-- Coding the macroblock after one that is not DONE violates the order (45 R327). -/
theorem exec_of_previous_not_done {i : Instr} {u : State} {m : Nat} (hm : u.argInt 0 = m + 1)
    (hdone : (u.record m).done = false) (hgrid : u.OnGrid) (hslice : u.argInt 2 = 0 ∨ u.argInt 2 = 2)
    (hi : i = .mbEncode ∧ u.EncodeOperandsOk ∨ i = .mbDecode ∧ 0 ≤ u.argInt 9 ∧ u.argInt 9 ≤ 51) :
    exec i u = .next (u.endsClean 10) := by
  classical
  have horder : ¬ u.InOrder u.mArg := by
    rintro ⟨-, -, hprev⟩
    have hindex : u.mArg = m + 1 := by
      rw [State.mArg, hm]
      rfl
    rw [hindex] at hprev
    exact absurd (hdone.symm.trans (hprev (Nat.succ_pos m))) (by decide)
  rcases hi with ⟨rfl, hoperands⟩ | ⟨rfl, hqp⟩
  · refine exec_mbEncode_of_check_error (e := .orderViolation) ?_
    rw [encodeCheck_eq hgrid, if_neg (not_not.mpr hslice), if_neg (not_not.mpr hoperands), if_pos horder]
  · refine exec_mbDecode_of_check_error (e := .orderViolation) ?_
    rw [decodeCheck_eq hgrid, if_neg (not_not.mpr hslice), if_neg (not_not.mpr hqp), if_pos horder]

/-! ### The causes of a shorter stream -/

/-- An error of MB_DECODE's stage 1 is the cause of its MbFailure (60 R408). -/
theorem mbDecode_ends_of_layer_error {s : State} (hready : s.DecodeReady) {e : Err}
    (h : decodeLayer s s.decodeArgs s.stream = .error e) : Ends .mbDecode s (BitVec.ofNat 32 (9 + 256 * e.code)) := by
  have hbody : decodeBody s s.decodeArgs = .error e := by
    rw [decodeBody_eq, h, except_error_bind]
  refine ⟨_, exec_mbDecode s, ?_⟩
  rw [s.mbCommand_of_body_error _ (decodeCheck_eq_ok_iff.mpr ⟨hready, rfl⟩) hbody, State.failMb_eq]

theorem decodeLayer_of_type_error {s : State} {a : DecodeArgs} {st : Stream} {e : Err} (h : ueDecode st = .error e) :
    decodeLayer s a st = .error e := by
  rw [decodeLayer_eq, h, except_error_bind]

theorem mbDecode_ends_of_cutShort {s : State} (hready : s.DecodeReady) (h : s.UeCutShort) : Ends .mbDecode s 0x309 :=
  mbDecode_ends_of_layer_error hready (decodeLayer_of_type_error (ueDecode_of_cutShort h))

theorem State.leaves_bsPos (s u : State) (bs : List Bool) : (s.leaves u bs).bsPos = u.bsPos := rfl

theorem State.finished_bsPos (t : State) (m : Nat) (r : MbRecord) (rs : List Int) :
    (t.finished m r rs).bsPos = t.bsPos := by
  rw [State.finished_eq]

theorem exec_mbDecode_completed {s t : State} (h : exec .mbDecode s = .next t) (hstatus : t.status = 0) :
    ∃ r n, s.DecodeReady ∧ decodeLayer s s.decodeArgs s.stream = .ok (r, s.stream.skip n) ∧ s.Room n ∧
      t.bsPos.toNat = s.bsPos.toNat + n := by
  obtain ⟨u, bs, hend, rfl⟩ := ended_of_exec h
  cases hend with
  | done heff =>
    cases heff with
    | @decode r n p hready hlayer hrec hroom =>
      refine ⟨r, n, hready, hlayer, hroom, ?_⟩
      rw [State.leaves_bsPos, ← State.finished, State.finished_bsPos, State.writeViews_bsPos]
      exact hroom.toNat_ofNat
    | query hi | read hi | write hi | dc _ hi => exact absurd hi (by decide)
  | clean => exact (State.fail_status_ne_zero s _ hstatus).elim
  | dirty hws => cases hws
  | @failed e pout => exact (State.failMb_status_ne_zero (s.spoil (mbWrites s.mArg pout)) e hstatus).elim

theorem State.ueCutShort_of_no_bits {s : State} (h : s.bsLen.toNat ≤ s.bsPos.toNat) : s.UeCutShort := by
  have hnone {bs : List Bool} (hpos : 0 < bs.length) : ¬ s.Holds bs := fun hholds => by
    have := hholds.1
    omega
  exact ⟨fun v _ => hnone (by simp [ueBits]), hnone (by simp)⟩

/-- A stream that ends before the bits that MB_DECODE takes is exhausted. -/
theorem mbDecode_ends_of_shorter {s t : State} {len : Word} (hexec : exec .mbDecode s = .next t) (hstatus : t.status = 0)
    (hlen : len.toNat < t.bsPos.toNat) : Ends .mbDecode { s with bsLen := len } 0x309 := by
  obtain ⟨r, n, hready, hlayer, hroom, hpos⟩ := exec_mbDecode_completed hexec hstatus
  rcases Nat.le_or_le len.toNat s.bsPos.toNat with hle | hge
  · exact mbDecode_ends_of_cutShort (s := { s with bsLen := len }) hready (State.ueCutShort_of_no_bits hle)
  · have hsame : s.SameMbs { s with bsLen := len } := ⟨rfl, rfl⟩
    have hcut := (IsReader.decodeLayer s s.decodeArgs).cut (st₂ := { s with bsLen := len }.stream)
      (k := len.toNat - s.bsPos.toNat) hlayer (by omega) ?_ ?_
    · rw [← hsame.decodeLayer] at hcut
      exact mbDecode_ends_of_layer_error (s := { s with bsLen := len }) hready hcut
    · exact Stream.holds_bits (st := { s with bsLen := len }.stream) (Nat.add_sub_cancel' hge).le
    · exact (Nat.add_sub_cancel' hge).symm

/-- A stream that ends before the bits that MB_ENCODE writes overflows. -/
theorem mbEncode_ends_of_shorter {s t : State} {len : Word} (hexec : exec .mbEncode s = .next t) (hstatus : t.status = 0)
    (hlen : len.toNat < t.bsPos.toNat) : Ends .mbEncode { s with bsLen := len } 0x409 := by
  obtain ⟨r, bs, hready, hforms, hbits, hroom, rfl⟩ := exec_mbEncode_completed hexec hstatus
  have hsame : s.SameMbs { s with bsLen := len } := ⟨rfl, rfl⟩
  have hlayer := hsame.layerItems s.encodeArgs r
  rw [State.encoded_bsPos hroom] at hlen
  have hforms' : { s with bsLen := len }.Forms r := hforms
  refine exec_mbEncode_of_not_room (s := { s with bsLen := len }) (bs := bs) hready hforms' ?_ (Nat.not_le.mpr hlen)
  rw [← hbits, ← hlayer]
  rfl

/-! ### The causes in what MB_DECODE reads first (45 R329, R334, R336, R360) -/

/-- The place of an mb_type among the Intra_16x16 types of the slice type ARG2 (45 R336). -/
def State.typePlace (s : State) (v : Nat) : Int := if s.argInt 2 = 0 then (v : Int) - 6 else (v : Int) - 1

/-- The codeNums of the mb_qp_delta values outside [-26, 25] (41 R163; 45 R329). -/
theorem seUnmap_outside {k : Nat} (h : k = 51 ∨ 53 ≤ k) : seUnmap k < -26 ∨ 25 < seUnmap k := by
  unfold seUnmap
  split <;> omega

theorem decodeQp_of_outside (pred : Int) {k : Nat} (hk : k ≤ 65534) (h : k = 51 ∨ 53 ≤ k) {st : Stream}
    (hholds : st.Holds (ueBits k)) : decodeQp pred st = .error .codecError := by
  have hdec : seDecode st = .ok (seUnmap k, st.skip (ueBits k).length) := by
    change (ueDecode st).bind _ = _
    rw [ueDecode_of_holds hk hholds]
    rfl
  have hrange := seUnmap_outside h
  change (seDecode st).bind _ = _
  rw [hdec, except_ok_bind]
  change (require _ _).bind _ = _
  rw [require_bind, if_neg (by rw [within_eq_true_iff]; omega)]

/-- An error in the mb_qp_delta of an intra macroblock. -/
theorem decodeTail_of_qp_error {s : State} {a : DecodeArgs} {r : MbRecord} (hintra : r.intra = true) {st : Stream} {e : Err}
    (h : decodeQp (s.qpPred a.m a.slice a.sliceQp) st = .error e) : decodeTail s a r st = .error e := by
  rw [decodeTail, hintra, Bool.true_or, if_pos rfl, h, except_error_bind]

section
variable {s : State} (hready : s.DecodeReady)
include hready

/-- An mb_type that is not in scope is the cause. -/
theorem mbDecode_ends_of_type {v : Nat} (hv : v ≤ 65534) (hholds : s.Holds (ueBits v)) {e : Err}
    (h : unpackMbType (s.argInt 2) v = .error e) : Ends .mbDecode s (BitVec.ofNat 32 (9 + 256 * e.code)) := by
  refine mbDecode_ends_of_layer_error hready ?_
  have htype := ueDecode_of_holds hv (State.holds_iff_stream.mp hholds)
  have hunpack : unpackMbType s.decodeArgs.st v = .error e := h
  rw [decodeLayer_eq, htype, except_ok_bind, hunpack, except_error_bind]

/-- An intra mb_type, and what follows it. -/
theorem decodeLayer_of_intra {v : Nat} (hv : v ≤ 65534)
    (hplace : 0 ≤ s.typePlace v ∧ s.typePlace v ≤ 23)
    {bs : List Bool} (hholds : s.Holds (ueBits v ++ bs)) :
    ∃ pm cbp, decodeLayer s s.decodeArgs s.stream =
      (decodeIntraPrediction pm cbp (typedRecord s.decodeArgs v) (s.stream.skip (ueBits v).length)).bind
        fun q => decodeTail s s.decodeArgs q.1 q.2 := by
  have htype := ueDecode_of_holds hv (Stream.holds_append.mp (State.holds_iff_stream.mp hholds)).1
  have hunpack : unpackMbType (s.argInt 2) v = unpackPlace (s.typePlace v) :=
    unpackMbType_eq_unpackPlace hready.2.1 (Int.natCast_nonneg v) fun h0 => by
      rw [State.typePlace, if_pos h0] at hplace
      omega
  generalize s.typePlace v = u at hplace hunpack
  rw [unpackPlace, if_neg (by omega), if_neg (by omega)] at hunpack
  refine ⟨u % 4, (if 12 ≤ u then 15 else 0) + 16 * (u / 4 % 3), ?_⟩
  rw [decodeLayer_eq, htype, except_ok_bind]
  dsimp only [State.decodeArgs]
  rw [hunpack, except_ok_bind, decodePrediction_eq]
  rfl

/-- An intra_chroma_pred_mode above 3 is the cause. -/
theorem mbDecode_ends_of_chromaMode {v c : Nat} (hv : v ≤ 65534) (hplace : 0 ≤ s.typePlace v ∧ s.typePlace v ≤ 23)
    (hc : c ≤ 65534) (hlarge : 3 < c) (hholds : s.Holds (ueBits v ++ ueBits c)) : Ends .mbDecode s 0x109 := by
  obtain ⟨pm, cbp, hlayer⟩ := decodeLayer_of_intra hready hv hplace hholds
  have hmode := ueDecode_of_holds hc (Stream.holds_append.mp (State.holds_iff_stream.mp hholds)).2
  refine mbDecode_ends_of_layer_error hready (e := .tableMiss) ?_
  rw [hlayer, decodeIntraPrediction, hmode, except_ok_bind, require_bind, if_neg (by simpa using hlarge),
    except_error_bind]

/-- An mb_qp_delta outside [-26, 25] is the cause. -/
theorem mbDecode_ends_of_qpDelta {v c k : Nat} (hv : v ≤ 65534) (hplace : 0 ≤ s.typePlace v ∧ s.typePlace v ≤ 23)
    (hc : c ≤ 3) (hk : k ≤ 65534) (hdelta : k = 51 ∨ 53 ≤ k)
    (hholds : s.Holds (ueBits v ++ ueBits c ++ ueBits k)) : Ends .mbDecode s 0x209 := by
  rw [List.append_assoc] at hholds
  obtain ⟨pm, cbp, hlayer⟩ := decodeLayer_of_intra hready hv hplace hholds
  obtain ⟨hmode, hqp⟩ := Stream.holds_append.mp (Stream.holds_append.mp (State.holds_iff_stream.mp hholds)).2
  refine mbDecode_ends_of_layer_error hready (e := .codecError) ?_
  rw [hlayer, decodeIntraPrediction_of_holds hc hmode, except_ok_bind]
  exact decodeTail_of_qp_error rfl (decodeQp_of_outside _ hk hdelta hqp)

end

/-- Settles O55, by the end that MbFailure is, and by the first element of the macroblock_layer that raises an error. -/
theorem mbFailureContained : Obligations.MbFailureContained := by
  refine ⟨fun i s t hexec h9 => ?_, fun s t len hstatus hlen => ⟨fun hexec => mbEncode_ends_of_shorter hexec hstatus hlen,
    fun hexec => mbDecode_ends_of_shorter hexec hstatus hlen⟩, fun s hready => ⟨mbDecode_ends_of_cutShort hready,
      fun hzeros => ?_, fun v hv => ⟨fun hplace hholds => ?_, fun hscope hholds => ?_, fun h0 h23 c hc => ⟨fun hlarge =>
        mbDecode_ends_of_chromaMode hready hv ⟨h0, h23⟩ hc hlarge, fun hle k hk hdelta =>
          mbDecode_ends_of_qpDelta hready hv ⟨h0, h23⟩ hle hk hdelta⟩⟩⟩⟩
  · obtain ⟨e, pout, hi, hgrid, rfl⟩ := exec_mbFailure hexec h9
    have hdone := s.spoil_mb_done s.mArg pout
    refine ⟨mbInstr_mem hi, ⟨e, ?_⟩, ?_, hdone, fun n hn => s.spoil_mb_record _ _ hn, fun i' arg hnext hgrid' hslice hi' => ?_⟩
    · exact ((s.spoil (mbWrites s.mArg pout)).failMb_endsWith e).1
    · rw [← s.spoil_errAcc (mbWrites s.mArg pout)]
      exact ((s.spoil (mbWrites s.mArg pout)).failMb_endsWith e).2
    · have hm : s.argInt 0 = s.mArg := (Int.toNat_of_nonneg hgrid.2.1).symm
      exact exec_of_previous_not_done (hnext.trans (congrArg (· + 1) hm)) hdone hgrid' hslice hi'
  · exact mbDecode_ends_of_layer_error hready (decodeLayer_of_type_error
      (ueDecode_eq_tableMiss_iff.mpr (State.holds_iff_stream.mp hzeros)))
  · refine mbDecode_ends_of_type hready hv hholds (e := .tableMiss) ?_
    rw [unpackMbType_eq_unpackPlace hready.2.1 (Int.natCast_nonneg v) (fun h0 => by rw [if_pos h0] at hplace; omega),
      unpackPlace, if_neg (by omega), if_pos hplace]
  · refine mbDecode_ends_of_type hready hv hholds (e := .unsupported) ?_
    rw [unpackMbType_eq_unpackPlace hready.2.1 (Int.natCast_nonneg v) (fun h0 => by rw [if_pos h0] at hscope; omega),
      unpackPlace, if_pos (by split at hscope <;> split <;> omega)]

end Sys2Proof.Machine
end
